-- ==== Sys2Proof/Word.lean ====
section
/-! DEFINITION. The word types of the machine and their plainest arithmetic. -/
namespace Sys2Proof

/-- A 64-bit register image (02 R37). -/
abbrev Word := BitVec 64

/-- An instruction word (02 R32). -/
abbrev Word32 := BitVec 32

/-- One byte of memory. -/
abbrev Byte := BitVec 8

/-- A 512-bit vector register image (02 R37). -/
abbrev Vec := BitVec 512

/-- The `n` bits of `w` whose lowest is bit `lo`: the slice [lo + n − 1 : lo] of R1. -/
abbrev slice {m : Nat} (w : BitVec m) (lo n : Nat) : BitVec n := w.extractLsb' lo n

/-- Bit `n` of `w` (R1). -/
abbrev bitAt {m : Nat} (w : BitVec m) (n : Nat) : Bool := w.getLsbD n

/-- `w` with the `n` bits from `lo` replaced by the low bits of `v`. -/
def setSlice {m : Nat} (w : BitVec m) (lo n : Nat) (v : BitVec n) : BitVec m :=
  (w &&& ~~~(BitVec.allOnes n |>.setWidth m |>.shiftLeft lo)) ||| ((v.setWidth m).shiftLeft lo)

/-- A flag as one bit. -/
def bit (b : Bool) : Word := if b then 1#64 else 0#64

end Sys2Proof
end

