-- ==== Sys2Proof/Syntax.lean ====
section
/-! DEFINITION. The instruction set of the Soleo D48 as syntax: element types, register fields,
and one constructor for every row of the opcode table. -/
namespace Sys2Proof

/-- A field that names an x register (02 R37). -/
abbrev XReg := BitVec 5
/-- A field that names a v register (02 R37). -/
abbrev VReg := BitVec 5
/-- A field that names a mask register (02 R37). -/
abbrev MReg := BitVec 3
/-- A field that names a tile register (02 R37). -/
abbrev TReg := BitVec 3
/-- A field that names an accumulator bank (02 R37). -/
abbrev AccReg := BitVec 2
/-- The STALL field of a word (02 R44). -/
abbrev StallCode := BitVec 3

/-- The element types (05 R91). -/
inductive ElemType where
  | i8 | i16 | i32 | i64 | n8 | n16 | n32 | n64 | f32 | bf16 | f16 | e4m3 | e5m2 | e2m1 | bp
  deriving DecidableEq, Repr

namespace ElemType

/-- The code of a type in the type field of a word (05 R91). -/
def code : ElemType → BitVec 4
  | .i8 => 0 | .i16 => 1 | .i32 => 2 | .i64 => 3 | .n8 => 4 | .n16 => 5 | .n32 => 6 | .n64 => 7
  | .f32 => 8 | .bf16 => 9 | .f16 => 10 | .e4m3 => 11 | .e5m2 => 12 | .e2m1 => 13 | .bp => 14

/-- The type that a code names; code 15 is reserved (05 R91). -/
def ofCode (c : BitVec 4) : Option ElemType :=
  match c.toNat with
  | 0 => some .i8 | 1 => some .i16 | 2 => some .i32 | 3 => some .i64
  | 4 => some .n8 | 5 => some .n16 | 6 => some .n32 | 7 => some .n64
  | 8 => some .f32 | 9 => some .bf16 | 10 => some .f16 | 11 => some .e4m3
  | 12 => some .e5m2 | 13 => some .e2m1 | 14 => some .bp | _ => none

/-- The number of bits of one element (05 R91). -/
def width : ElemType → Nat
  | .i8 | .n8 | .e4m3 | .e5m2 | .bp => 8
  | .i16 | .n16 | .bf16 | .f16 => 16
  | .i32 | .n32 | .f32 => 32
  | .i64 | .n64 => 64
  | .e2m1 => 4

/-- The class INT of 09 R216. -/
def isInt : ElemType → Bool
  | .i8 | .i16 | .i32 | .i64 | .n8 | .n16 | .n32 | .n64 => true
  | .f32 | .bf16 | .f16 | .e4m3 | .e5m2 | .e2m1 | .bp => false

/-- The signed integer types (05 R91). -/
def isSigned : ElemType → Bool
  | .i8 | .i16 | .i32 | .i64 => true
  | .n8 | .n16 | .n32 | .n64 | .f32 | .bf16 | .f16 | .e4m3 | .e5m2 | .e2m1 | .bp => false

/-- The class FP of 09 R216. -/
def isFp : ElemType → Bool
  | .f32 | .bf16 | .f16 => true
  | .i8 | .i16 | .i32 | .i64 | .n8 | .n16 | .n32 | .n64 | .e4m3 | .e5m2 | .e2m1 | .bp => false

/-- INT or FP (09 R220). -/
def isIntFp (t : ElemType) : Bool := t.isInt || t.isFp

/-- The class MOVE of 09 R216. -/
def isMove : ElemType → Bool
  | .e2m1 | .bp => false
  | .i8 | .i16 | .i32 | .i64 | .n8 | .n16 | .n32 | .n64 | .f32 | .bf16 | .f16 | .e4m3 | .e5m2 => true

/-- The types VDOT4 accepts (09 R233). -/
def isDot : ElemType → Bool
  | .i8 | .n8 | .i16 | .n16 => true
  | .i32 | .i64 | .n32 | .n64 | .f32 | .bf16 | .f16 | .e4m3 | .e5m2 | .e2m1 | .bp => false

/-- The types VCLASS accepts: every floating-point type (05 R108). -/
def isClass : ElemType → Bool
  | .f32 | .bf16 | .f16 | .e4m3 | .e5m2 | .e2m1 => true
  | .i8 | .i16 | .i32 | .i64 | .n8 | .n16 | .n32 | .n64 | .bp => false

/-- The groups within which VCVT converts (05 R104); BP is in none. -/
def cvtGroup : ElemType → Nat
  | .i8 | .n8 | .e4m3 | .e5m2 => 1
  | .i16 | .n16 | .bf16 | .f16 => 2
  | .i32 | .n32 | .f32 => 3
  | .i64 | .n64 => 4
  | .e2m1 => 5
  | .bp => 0

/-- The pairs (destination, source) that VCVT accepts (05 R104). -/
def cvtPair (dst src : ElemType) : Bool := dst.cvtGroup == src.cvtGroup && dst.cvtGroup != 0

/-- The pairs (destination, source) that VCVTN accepts (05 R104). -/
def cvtnPair (dst src : ElemType) : Bool :=
  decide (dst.width < src.width) && decide (dst ≠ .bp) && decide (src ≠ .bp)

/-- The type that VCVTW widens to (02 R36); none for a source type it does not accept. -/
def widened : ElemType → Option ElemType
  | .i8 => some .i16 | .i16 => some .i32 | .i32 => some .i64
  | .n8 => some .n16 | .n16 => some .n32 | .n32 => some .n64
  | .bf16 => some .f32 | .f16 => some .f32
  | .e4m3 => some .f16 | .e5m2 => some .f16 | .e2m1 => some .e4m3
  | .i64 | .n64 | .f32 | .bp => none

end ElemType

/-- The instructions of the device: one constructor per row of the opcode table.
The first 249 are words of 02 R38; their fields are the fields of the word, most significant first.
The last eleven of them have no field but STALL, which a serializing instruction ignores (02 R48),
so they carry none. The other rows are the steps that agents without an instruction word
take (95); what such a step acts on stands in the state (log 5). -/
inductive Instr where
  /-- ADD (R62). -/
  | add (st : StallCode) (d : XReg) (a : XReg) (b : XReg)
  /-- SUB (R62). -/
  | sub (st : StallCode) (d : XReg) (a : XReg) (b : XReg)
  /-- AND (R62). -/
  | and (st : StallCode) (d : XReg) (a : XReg) (b : XReg)
  /-- OR (R62). -/
  | or (st : StallCode) (d : XReg) (a : XReg) (b : XReg)
  /-- XOR (R62). -/
  | xor (st : StallCode) (d : XReg) (a : XReg) (b : XReg)
  /-- ANDN (R62). -/
  | andn (st : StallCode) (d : XReg) (a : XReg) (b : XReg)
  /-- ORN (R62). -/
  | orn (st : StallCode) (d : XReg) (a : XReg) (b : XReg)
  /-- SLL (R62). -/
  | sll (st : StallCode) (d : XReg) (a : XReg) (b : XReg)
  /-- SRL (R62). -/
  | srl (st : StallCode) (d : XReg) (a : XReg) (b : XReg)
  /-- SRA (R62). -/
  | sra (st : StallCode) (d : XReg) (a : XReg) (b : XReg)
  /-- ROL (R62). -/
  | rol (st : StallCode) (d : XReg) (a : XReg) (b : XReg)
  /-- ROR (R62). -/
  | ror (st : StallCode) (d : XReg) (a : XReg) (b : XReg)
  /-- SLT (R62). -/
  | slt (st : StallCode) (d : XReg) (a : XReg) (b : XReg)
  /-- SLTU (R62). -/
  | sltu (st : StallCode) (d : XReg) (a : XReg) (b : XReg)
  /-- MIN (R62). -/
  | min (st : StallCode) (d : XReg) (a : XReg) (b : XReg)
  /-- MAX (R62). -/
  | max (st : StallCode) (d : XReg) (a : XReg) (b : XReg)
  /-- MINU (R62). -/
  | minu (st : StallCode) (d : XReg) (a : XReg) (b : XReg)
  /-- MAXU (R62). -/
  | maxu (st : StallCode) (d : XReg) (a : XReg) (b : XReg)
  /-- MUL (R62). -/
  | mul (st : StallCode) (d : XReg) (a : XReg) (b : XReg)
  /-- MULH (R62). -/
  | mulh (st : StallCode) (d : XReg) (a : XReg) (b : XReg)
  /-- MULHU (R62). -/
  | mulhu (st : StallCode) (d : XReg) (a : XReg) (b : XReg)
  /-- MULHSU (R62). -/
  | mulhsu (st : StallCode) (d : XReg) (a : XReg) (b : XReg)
  /-- DIV (R63). -/
  | div (st : StallCode) (d : XReg) (a : XReg) (b : XReg)
  /-- DIVU (R63). -/
  | divu (st : StallCode) (d : XReg) (a : XReg) (b : XReg)
  /-- REM (R63). -/
  | rem (st : StallCode) (d : XReg) (a : XReg) (b : XReg)
  /-- REMU (R63). -/
  | remu (st : StallCode) (d : XReg) (a : XReg) (b : XReg)
  /-- CLZ (R62). -/
  | clz (st : StallCode) (d : XReg) (a : XReg)
  /-- CTZ (R62). -/
  | ctz (st : StallCode) (d : XReg) (a : XReg)
  /-- CPOP (R62). -/
  | cpop (st : StallCode) (d : XReg) (a : XReg)
  /-- SEXTB (R62). -/
  | sextb (st : StallCode) (d : XReg) (a : XReg)
  /-- SEXTH (R62). -/
  | sexth (st : StallCode) (d : XReg) (a : XReg)
  /-- SEXTW (R62). -/
  | sextw (st : StallCode) (d : XReg) (a : XReg)
  /-- ZEXTW (R62). -/
  | zextw (st : StallCode) (d : XReg) (a : XReg)
  /-- SHADD1 (R62). -/
  | shadd1 (st : StallCode) (d : XReg) (a : XReg) (b : XReg)
  /-- SHADD2 (R62). -/
  | shadd2 (st : StallCode) (d : XReg) (a : XReg) (b : XReg)
  /-- SHADD3 (R62). -/
  | shadd3 (st : StallCode) (d : XReg) (a : XReg) (b : XReg)
  /-- ADDI (R64). -/
  | addi (st : StallCode) (d : XReg) (a : XReg) (i : BitVec 12)
  /-- ANDI (R64). -/
  | andi (st : StallCode) (d : XReg) (a : XReg) (i : BitVec 12)
  /-- ORI (R64). -/
  | ori (st : StallCode) (d : XReg) (a : XReg) (i : BitVec 12)
  /-- XORI (R64). -/
  | xori (st : StallCode) (d : XReg) (a : XReg) (i : BitVec 12)
  /-- SLTI (R64). -/
  | slti (st : StallCode) (d : XReg) (a : XReg) (i : BitVec 12)
  /-- SLTIU (R64). -/
  | sltiu (st : StallCode) (d : XReg) (a : XReg) (i : BitVec 12)
  /-- SLLI (R65). -/
  | slli (st : StallCode) (d : XReg) (a : XReg) (n : BitVec 6)
  /-- SRLI (R65). -/
  | srli (st : StallCode) (d : XReg) (a : XReg) (n : BitVec 6)
  /-- SRAI (R65). -/
  | srai (st : StallCode) (d : XReg) (a : XReg) (n : BitVec 6)
  /-- RORI (R65). -/
  | rori (st : StallCode) (d : XReg) (a : XReg) (n : BitVec 6)
  /-- LDHI (R66). -/
  | ldhi (st : StallCode) (d : XReg) (i : BitVec 17)
  /-- ADDPC (R66). -/
  | addpc (st : StallCode) (d : XReg) (i : BitVec 17)
  /-- BEQ (R69). -/
  | beq (st : StallCode) (a : XReg) (b : XReg) (o : BitVec 12)
  /-- BNE (R69). -/
  | bne (st : StallCode) (a : XReg) (b : XReg) (o : BitVec 12)
  /-- BLT (R69). -/
  | blt (st : StallCode) (a : XReg) (b : XReg) (o : BitVec 12)
  /-- BGE (R69). -/
  | bge (st : StallCode) (a : XReg) (b : XReg) (o : BitVec 12)
  /-- BLTU (R69). -/
  | bltu (st : StallCode) (a : XReg) (b : XReg) (o : BitVec 12)
  /-- BGEU (R69). -/
  | bgeu (st : StallCode) (a : XReg) (b : XReg) (o : BitVec 12)
  /-- JAL (R70). -/
  | jal (st : StallCode) (d : XReg) (o : BitVec 17)
  /-- JALR (R70). -/
  | jalr (st : StallCode) (d : XReg) (a : XReg) (i : BitVec 12)
  /-- FRAME (R76). -/
  | frame (st : StallCode) (n : BitVec 4) (c : BitVec 8) (t : BitVec 3) (x : BitVec 1) (y : BitVec 1) (z : BitVec 1)
  /-- BQT (R83). -/
  | bqt (st : StallCode) (o : BitVec 17)
  /-- BQF (R83). -/
  | bqf (st : StallCode) (o : BitVec 17)
  /-- BQPUSH (R82). -/
  | bqpush (st : StallCode) (a : XReg) (t : BitVec 1)
  /-- QLD (R143). -/
  | qld (st : StallCode) (n : BitVec 2) (a : XReg) (i : BitVec 12)
  /-- QST (R143). -/
  | qst (st : StallCode) (n : BitVec 2) (a : XReg) (i : BitVec 12)
  /-- QBIND (R145). -/
  | qbind (st : StallCode) (a : XReg)
  /-- QUNBIND (R145). -/
  | qunbind (st : StallCode) (a : XReg)
  /-- QSTART (R146). -/
  | qstart (st : StallCode) (u : BitVec 1) (a : XReg) (b : XReg)
  /-- QSTOP (R147). -/
  | qstop (st : StallCode) (u : BitVec 1)
  /-- QWAIT (R147). -/
  | qwait (st : StallCode) (u : BitVec 1)
  /-- LB (R130). -/
  | lb (st : StallCode) (d : XReg) (a : XReg) (i : BitVec 12)
  /-- LH (R130). -/
  | lh (st : StallCode) (d : XReg) (a : XReg) (i : BitVec 12)
  /-- LW (R130). -/
  | lw (st : StallCode) (d : XReg) (a : XReg) (i : BitVec 12)
  /-- LD (R130). -/
  | ld (st : StallCode) (d : XReg) (a : XReg) (i : BitVec 12)
  /-- LBU (R130). -/
  | lbu (st : StallCode) (d : XReg) (a : XReg) (i : BitVec 12)
  /-- LHU (R130). -/
  | lhu (st : StallCode) (d : XReg) (a : XReg) (i : BitVec 12)
  /-- LWU (R130). -/
  | lwu (st : StallCode) (d : XReg) (a : XReg) (i : BitVec 12)
  /-- SB (R130). -/
  | sb (st : StallCode) (b : XReg) (a : XReg) (i : BitVec 12)
  /-- SH (R130). -/
  | sh (st : StallCode) (b : XReg) (a : XReg) (i : BitVec 12)
  /-- SW (R130). -/
  | sw (st : StallCode) (b : XReg) (a : XReg) (i : BitVec 12)
  /-- SD (R130). -/
  | sd (st : StallCode) (b : XReg) (a : XReg) (i : BitVec 12)
  /-- LDW (R138). -/
  | ldw (st : StallCode) (d : XReg) (a : XReg) (i : BitVec 12)
  /-- LDWE (R138). -/
  | ldwe (st : StallCode) (d : XReg) (a : XReg) (i : BitVec 12)
  /-- STW (R138). -/
  | stw (st : StallCode) (b : XReg) (a : XReg) (i : BitVec 12)
  /-- STF (R138). -/
  | stf (st : StallCode) (b : XReg) (a : XReg) (i : BitVec 12)
  /-- LDF (R141). -/
  | ldf (st : StallCode) (d : XReg) (a : XReg) (i : BitVec 12)
  /-- VLD (R133). -/
  | vld (st : StallCode) (d : VReg) (a : XReg) (m : MReg) (o : BitVec 9)
  /-- VST (R133). -/
  | vst (st : StallCode) (d : VReg) (a : XReg) (m : MReg) (o : BitVec 9)
  /-- VLDS (R134). -/
  | vlds (st : StallCode) (d : VReg) (a : XReg) (b : XReg) (m : MReg) (w : BitVec 2)
  /-- VSTS (R134). -/
  | vsts (st : StallCode) (d : VReg) (a : XReg) (b : XReg) (m : MReg) (w : BitVec 2)
  /-- VGATH (R135). -/
  | vgath (st : StallCode) (d : VReg) (a : XReg) (b : VReg) (m : MReg) (w : BitVec 2)
  /-- VSCAT (R135). -/
  | vscat (st : StallCode) (d : VReg) (a : XReg) (b : VReg) (m : MReg) (w : BitVec 2)
  /-- TLD (R136). -/
  | tld (st : StallCode) (t : BitVec 3) (a : XReg) (b : XReg)
  /-- TST (R136). -/
  | tst (st : StallCode) (t : BitVec 3) (a : XReg) (b : XReg)
  /-- CPREF (R150). -/
  | cpref (st : StallCode) (a : XReg)
  /-- CCLEAN (R150). -/
  | cclean (st : StallCode) (a : XReg)
  /-- CFLUSH (R150). -/
  | cflush (st : StallCode) (a : XReg)
  /-- CINV (R150). -/
  | cinv (st : StallCode) (a : XReg)
  /-- FEGET (R151). -/
  | feget (st : StallCode) (d : XReg) (a : XReg)
  /-- FESET (R151). -/
  | feset (st : StallCode) (a : XReg) (b : XReg)
  /-- FENCE (R176). -/
  | fence (st : StallCode) (q : BitVec 1) (r : BitVec 1) (c : BitVec 3) (u : BitVec 1)
  /-- FENCEM (R178). -/
  | fencem (st : StallCode) (a : XReg) (b : XReg)
  /-- AMOADD (R191). -/
  | amoadd (st : StallCode) (d : XReg) (a : XReg) (b : XReg) (w : BitVec 1) (o : BitVec 2)
  /-- AMOAND (R191). -/
  | amoand (st : StallCode) (d : XReg) (a : XReg) (b : XReg) (w : BitVec 1) (o : BitVec 2)
  /-- AMOOR (R191). -/
  | amoor (st : StallCode) (d : XReg) (a : XReg) (b : XReg) (w : BitVec 1) (o : BitVec 2)
  /-- AMOXOR (R191). -/
  | amoxor (st : StallCode) (d : XReg) (a : XReg) (b : XReg) (w : BitVec 1) (o : BitVec 2)
  /-- AMOMIN (R191). -/
  | amomin (st : StallCode) (d : XReg) (a : XReg) (b : XReg) (w : BitVec 1) (o : BitVec 2)
  /-- AMOMAX (R191). -/
  | amomax (st : StallCode) (d : XReg) (a : XReg) (b : XReg) (w : BitVec 1) (o : BitVec 2)
  /-- AMOMINU (R191). -/
  | amominu (st : StallCode) (d : XReg) (a : XReg) (b : XReg) (w : BitVec 1) (o : BitVec 2)
  /-- AMOMAXU (R191). -/
  | amomaxu (st : StallCode) (d : XReg) (a : XReg) (b : XReg) (w : BitVec 1) (o : BitVec 2)
  /-- AMOSWAP (R191). -/
  | amoswap (st : StallCode) (d : XReg) (a : XReg) (b : XReg) (w : BitVec 1) (o : BitVec 2)
  /-- AMOFADD (R192). -/
  | amofadd (st : StallCode) (d : XReg) (a : XReg) (b : XReg) (o : BitVec 2)
  /-- AMOFMAX (R192). -/
  | amofmax (st : StallCode) (d : XReg) (a : XReg) (b : XReg) (o : BitVec 2)
  /-- AMOINCS (R191). -/
  | amoincs (st : StallCode) (d : XReg) (a : XReg) (b : XReg) (w : BitVec 1) (o : BitVec 2)
  /-- AMOCAS (R193). -/
  | amocas (st : StallCode) (d : XReg) (a : XReg) (b : XReg) (w : BitVec 1) (o : BitVec 2)
  /-- ETCALL (R214). -/
  | etcall (st : StallCode) (d : XReg) (a : XReg) (b : XReg) (o : BitVec 1) (i : BitVec 6)
  /-- ETINST (R211). -/
  | etinst (st : StallCode) (d : XReg) (a : XReg) (b : XReg)
  /-- ETDROP (R211). -/
  | etdrop (st : StallCode) (b : XReg)
  /-- ETFLUSH (R211). -/
  | etflush (st : StallCode)
  /-- ETQUERY (R211). -/
  | etquery (st : StallCode) (d : XReg) (b : XReg)
  /-- VADD (R220). -/
  | vadd (st : StallCode) (d : VReg) (a : VReg) (b : VReg) (m : MReg) (t : ElemType)
  /-- VSUB (R220). -/
  | vsub (st : StallCode) (d : VReg) (a : VReg) (b : VReg) (m : MReg) (t : ElemType)
  /-- VMUL (R221). -/
  | vmul (st : StallCode) (d : VReg) (a : VReg) (b : VReg) (m : MReg) (t : ElemType)
  /-- VMULH (R220). -/
  | vmulh (st : StallCode) (d : VReg) (a : VReg) (b : VReg) (m : MReg) (t : ElemType)
  /-- VFMA (R221). -/
  | vfma (st : StallCode) (d : VReg) (a : VReg) (b : VReg) (m : MReg) (t : ElemType)
  /-- VFMS (R221). -/
  | vfms (st : StallCode) (d : VReg) (a : VReg) (b : VReg) (m : MReg) (t : ElemType)
  /-- VFNMA (R221). -/
  | vfnma (st : StallCode) (d : VReg) (a : VReg) (b : VReg) (m : MReg) (t : ElemType)
  /-- VDIV (R222). -/
  | vdiv (st : StallCode) (d : VReg) (a : VReg) (b : VReg) (m : MReg) (t : ElemType)
  /-- VSQRT (R222). -/
  | vsqrt (st : StallCode) (d : VReg) (a : VReg) (m : MReg) (t : ElemType)
  /-- VMIN (R220). -/
  | vmin (st : StallCode) (d : VReg) (a : VReg) (b : VReg) (m : MReg) (t : ElemType)
  /-- VMAX (R220). -/
  | vmax (st : StallCode) (d : VReg) (a : VReg) (b : VReg) (m : MReg) (t : ElemType)
  /-- VABS (R220). -/
  | vabs (st : StallCode) (d : VReg) (a : VReg) (m : MReg) (t : ElemType)
  /-- VNEG (R220). -/
  | vneg (st : StallCode) (d : VReg) (a : VReg) (m : MReg) (t : ElemType)
  /-- VAND (R220). -/
  | vand (st : StallCode) (d : VReg) (a : VReg) (b : VReg) (m : MReg) (t : ElemType)
  /-- VOR (R220). -/
  | vor (st : StallCode) (d : VReg) (a : VReg) (b : VReg) (m : MReg) (t : ElemType)
  /-- VXOR (R220). -/
  | vxor (st : StallCode) (d : VReg) (a : VReg) (b : VReg) (m : MReg) (t : ElemType)
  /-- VSLL (R220). -/
  | vsll (st : StallCode) (d : VReg) (a : VReg) (b : VReg) (m : MReg) (t : ElemType)
  /-- VSRL (R220). -/
  | vsrl (st : StallCode) (d : VReg) (a : VReg) (b : VReg) (m : MReg) (t : ElemType)
  /-- VSRA (R220). -/
  | vsra (st : StallCode) (d : VReg) (a : VReg) (b : VReg) (m : MReg) (t : ElemType)
  /-- VSADD (R220). -/
  | vsadd (st : StallCode) (d : VReg) (a : VReg) (b : VReg) (m : MReg) (t : ElemType)
  /-- VSSUB (R220). -/
  | vssub (st : StallCode) (d : VReg) (a : VReg) (b : VReg) (m : MReg) (t : ElemType)
  /-- VCMPEQ (R223). -/
  | vcmpeq (st : StallCode) (d : MReg) (a : VReg) (b : VReg) (m : MReg) (t : ElemType)
  /-- VCMPLT (R223). -/
  | vcmplt (st : StallCode) (d : MReg) (a : VReg) (b : VReg) (m : MReg) (t : ElemType)
  /-- VCMPLE (R223). -/
  | vcmple (st : StallCode) (d : MReg) (a : VReg) (b : VReg) (m : MReg) (t : ElemType)
  /-- VSEL (R224). -/
  | vsel (st : StallCode) (d : VReg) (a : VReg) (b : VReg) (m : MReg) (t : ElemType)
  /-- VMV (R225). -/
  | vmv (st : StallCode) (d : VReg) (a : VReg) (m : MReg) (t : ElemType)
  /-- VBCAST (R225). -/
  | vbcast (st : StallCode) (d : VReg) (a : XReg) (m : MReg) (t : ElemType)
  /-- VMVX (R225). -/
  | vmvx (st : StallCode) (d : XReg) (a : VReg) (b : XReg) (t : ElemType)
  /-- VSLIDEUP (R226). -/
  | vslideup (st : StallCode) (d : VReg) (a : VReg) (b : XReg) (m : MReg) (t : ElemType)
  /-- VSLIDEDN (R226). -/
  | vslidedn (st : StallCode) (d : VReg) (a : VReg) (b : XReg) (m : MReg) (t : ElemType)
  /-- VPERM (R226). -/
  | vperm (st : StallCode) (d : VReg) (a : VReg) (b : VReg) (m : MReg) (t : ElemType)
  /-- VCOMPRESS (R227). -/
  | vcompress (st : StallCode) (d : VReg) (a : VReg) (m : MReg) (t : ElemType)
  /-- VEXPAND (R227). -/
  | vexpand (st : StallCode) (d : VReg) (a : VReg) (m : MReg) (t : ElemType)
  /-- VREDSUM (R228). -/
  | vredsum (st : StallCode) (d : VReg) (a : VReg) (b : VReg) (m : MReg) (t : ElemType)
  /-- VREDMAX (R228). -/
  | vredmax (st : StallCode) (d : VReg) (a : VReg) (b : VReg) (m : MReg) (t : ElemType)
  /-- VREDMIN (R228). -/
  | vredmin (st : StallCode) (d : VReg) (a : VReg) (b : VReg) (m : MReg) (t : ElemType)
  /-- VREDQ (R230). -/
  | vredq (st : StallCode) (d : VReg) (a : XReg) (c : BitVec 3) (m : MReg) (t : ElemType)
  /-- VDOT4 (R233). -/
  | vdot4 (st : StallCode) (d : VReg) (a : VReg) (b : VReg) (m : MReg) (t : ElemType)
  /-- VEXP2 (R222). -/
  | vexp2 (st : StallCode) (d : VReg) (a : VReg) (m : MReg) (t : ElemType)
  /-- VLOG2 (R222). -/
  | vlog2 (st : StallCode) (d : VReg) (a : VReg) (m : MReg) (t : ElemType)
  /-- VRCP (R222). -/
  | vrcp (st : StallCode) (d : VReg) (a : VReg) (m : MReg) (t : ElemType)
  /-- VRSQ (R222). -/
  | vrsq (st : StallCode) (d : VReg) (a : VReg) (m : MReg) (t : ElemType)
  /-- MAND (R234). -/
  | mand (st : StallCode) (d : MReg) (a : MReg) (b : MReg)
  /-- MOR (R234). -/
  | mor (st : StallCode) (d : MReg) (a : MReg) (b : MReg)
  /-- MXOR (R234). -/
  | mxor (st : StallCode) (d : MReg) (a : MReg) (b : MReg)
  /-- MNOT (R234). -/
  | mnot (st : StallCode) (d : MReg) (a : MReg)
  /-- MCNT (R234). -/
  | mcnt (st : StallCode) (d : XReg) (a : MReg)
  /-- MFIRST (R234). -/
  | mfirst (st : StallCode) (d : XReg) (a : MReg)
  /-- MSET (R234). -/
  | mset (st : StallCode) (d : MReg) (a : XReg)
  /-- MGET (R234). -/
  | mget (st : StallCode) (d : XReg) (a : MReg)
  /-- VCVT (R104). -/
  | vcvt (st : StallCode) (d : VReg) (a : VReg) (e : ElemType) (m : MReg) (t : ElemType)
  /-- VCVTN (R104). -/
  | vcvtn (st : StallCode) (d : VReg) (a : VReg) (e : ElemType) (m : MReg) (t : ElemType)
  /-- VCVTWL (R106). -/
  | vcvtwl (st : StallCode) (d : VReg) (a : VReg) (t : ElemType) (m : MReg)
  /-- VCVTWH (R106). -/
  | vcvtwh (st : StallCode) (d : VReg) (a : VReg) (t : ElemType) (m : MReg)
  /-- VPLANE (R108). -/
  | vplane (st : StallCode) (d : VReg) (a : VReg)
  /-- VUNPLANE (R108). -/
  | vunplane (st : StallCode) (d : VReg) (a : VReg)
  /-- VSCALEB (R108). -/
  | vscaleb (st : StallCode) (d : VReg) (a : VReg) (b : VReg) (t : ElemType)
  /-- VCLASS (R108). -/
  | vclass (st : StallCode) (d : VReg) (a : VReg) (t : ElemType)
  /-- SETSHAPE (R244). -/
  | setshape (st : StallCode) (d : XReg) (a : XReg) (k : BitVec 3)
  /-- MGANG (R260). -/
  | mgang (st : StallCode) (a : XReg)
  /-- MMA (R246). -/
  | mma (st : StallCode) (b : BitVec 2) (a : BitVec 3) (c : BitVec 3)
  /-- MMAG (R249). -/
  | mmag (st : StallCode) (b : BitVec 2) (a : BitVec 3) (c : BitVec 3) (v : VReg)
  /-- MDRAIN (R251). -/
  | mdrain (st : StallCode) (b : BitVec 2) (t : BitVec 3) (z : BitVec 1)
  /-- MZERO (R250). -/
  | mzero (st : StallCode) (b : BitVec 2)
  /-- MPSUM (R253). -/
  | mpsum (st : StallCode) (d : VReg) (b : BitVec 2) (r : BitVec 5) (q : BitVec 1)
  /-- MCFG (R245). -/
  | mcfg (st : StallCode) (a : XReg)
  /-- MSCALE (R252). -/
  | mscale (st : StallCode) (c : BitVec 1) (k : BitVec 3)
  /-- TMOV (R254). -/
  | tmov (st : StallCode) (d : BitVec 3) (a : BitVec 3)
  /-- TMOVV (R255). -/
  | tmovv (st : StallCode) (v : VReg) (r : BitVec 1) (k : BitVec 3) (x : XReg)
  /-- TTRANS (R256). -/
  | ttrans (st : StallCode) (d : BitVec 3) (z : BitVec 2) (a : BitVec 3)
  /-- MSTATR (R258). -/
  | mstatr (st : StallCode) (d : XReg) (a : XReg)
  /-- TCLR (R257). -/
  | tclr (st : StallCode) (k : BitVec 3)
  /-- CPY (R277). -/
  | cpy (st : StallCode) (d : XReg) (a : XReg)
  /-- CPYD (R279). -/
  | cpyd (st : StallCode) (d : XReg) (a : XReg)
  /-- CPYFILL (R278). -/
  | cpyfill (st : StallCode) (d : XReg) (a : XReg)
  /-- RROT (R284). -/
  | rrot (st : StallCode) (d : XReg) (a : XReg) (b : XReg)
  /-- ALLRED (R287). -/
  | allred (st : StallCode) (d : XReg) (a : XReg)
  /-- BCASTC (R287). -/
  | bcastc (st : StallCode) (d : XReg) (a : XReg)
  /-- INBDQ (R274). -/
  | inbdq (st : StallCode) (d : XReg)
  /-- INBPEEK (R275). -/
  | inbpeek (st : StallCode) (d : XReg)
  /-- INBCFG (R276). -/
  | inbcfg (st : StallCode) (a : XReg) (b : XReg)
  /-- BCFG (R309). -/
  | bcfg (st : StallCode) (d : XReg) (a : XReg)
  /-- BROOT (R309). -/
  | broot (st : StallCode) (d : XReg) (a : XReg)
  /-- BDESC (R301). -/
  | bdesc (st : StallCode) (d : XReg) (a : XReg)
  /-- BEXP (R304). -/
  | bexp (st : StallCode) (d : XReg) (a : XReg)
  /-- BBACK (R306). -/
  | bback (st : StallCode) (d : XReg) (a : XReg)
  /-- BPOOL (R309). -/
  | bpool (st : StallCode) (d : XReg) (a : XReg)
  /-- BREROOT (R308). -/
  | breroot (st : StallCode) (d : XReg) (a : XReg)
  /-- BSTAT (R310). -/
  | bstat (st : StallCode) (d : XReg) (a : XReg) (b : XReg)
  /-- BDROP (R307). -/
  | bdrop (st : StallCode) (d : XReg) (a : XReg)
  /-- SXMIT (R326). -/
  | sxmit (st : StallCode) (a : XReg) (h : BitVec 1) (n : BitVec 10)
  /-- SSEL (R326). -/
  | ssel (st : StallCode) (a : XReg) (h : BitVec 1) (n : BitVec 10)
  /-- CSIGN (R318). -/
  | csign (st : StallCode) (a : XReg)
  /-- BARDOM (R331). -/
  | bardom (st : StallCode) (a : XReg) (b : XReg)
  /-- BAR (R332). -/
  | bar (st : StallCode) (a : XReg)
  /-- SNAP (R339). -/
  | snap (st : StallCode) (d : XReg) (a : XReg)
  /-- CSTAT (R341). -/
  | cstat (st : StallCode) (d : XReg) (a : XReg)
  /-- SEND (R350). -/
  | send (st : StallCode) (a : XReg) (b : XReg)
  /-- SENDV (R350). -/
  | sendv (st : StallCode) (a : XReg) (b : VReg)
  /-- RECV (R352). -/
  | recv (st : StallCode) (d : XReg) (a : XReg)
  /-- RECVV (R352). -/
  | recvv (st : StallCode) (d : VReg) (a : XReg)
  /-- RECVTRY (R352). -/
  | recvtry (st : StallCode) (d : XReg) (a : XReg)
  /-- RLD (R354). -/
  | rld (st : StallCode) (a : XReg) (b : XReg)
  /-- RST (R354). -/
  | rst (st : StallCode) (v : VReg) (a : XReg) (b : XReg)
  /-- CHOPEN (R353). -/
  | chopen (st : StallCode) (a : XReg)
  /-- CHCLOSE (R353). -/
  | chclose (st : StallCode) (d : XReg) (a : XReg)
  /-- SPAWN (R378). -/
  | spawn (st : StallCode) (d : XReg) (a : XReg)
  /-- TASKQ (R393). -/
  | taskq (st : StallCode) (a : XReg)
  /-- TASKEND (R394). -/
  | taskend (st : StallCode)
  /-- GDONE (R379). -/
  | gdone (st : StallCode)
  /-- MBOXREG (R391). -/
  | mboxreg (st : StallCode) (d : XReg) (a : XReg) (b : XReg)
  /-- CRR (R403). -/
  | crr (st : StallCode) (d : XReg) (n : BitVec 10)
  /-- CRW (R403). -/
  | crw (st : StallCode) (d : XReg) (n : BitVec 10)
  /-- CRSET (R403). -/
  | crset (st : StallCode) (d : XReg) (n : BitVec 10)
  /-- CRCLR (R403). -/
  | crclr (st : StallCode) (d : XReg) (n : BitVec 10)
  /-- TLBINV (R409). -/
  | tlbinv (st : StallCode) (a : XReg) (b : XReg)
  /-- PAUSE (R407). -/
  | pause (st : StallCode)
  /-- PGATE (R421). -/
  | pgate (st : StallCode) (d : XReg) (a : XReg)
  /-- CTXSAVE (R418). -/
  | ctxsave (st : StallCode) (d : XReg) (a : XReg)
  /-- CTXLOAD (R419). -/
  | ctxload (st : StallCode) (a : XReg)
  /-- ERRRD (R425). -/
  | errrd (st : StallCode) (d : XReg) (a : XReg)
  /-- FENCEI (R177). -/
  | fencei
  /-- FENCEA (R179). -/
  | fencea
  /-- UIRET (R292). -/
  | uiret
  /-- CDISS (R336). -/
  | cdiss
  /-- SSTEP (R325). -/
  | sstep
  /-- SXEND (R328). -/
  | sxend
  /-- ECALL (R407). -/
  | ecall
  /-- EBRK (R407). -/
  | ebrk
  /-- ERET (R406). -/
  | eret
  /-- WFI (R407). -/
  | wfi
  /-- HALT (R410). -/
  | halt
  /-- DEVICE_RESET (R30). -/
  | deviceReset
  /-- POWER_ON_BRINGUP (R445). -/
  | powerOnBringup
  /-- HART_RELEASE (R410). -/
  | hartRelease
  /-- INTERRUPT_ENTRY (R405). -/
  | interruptEntry
  /-- USER_INTERRUPT_ENTRY (R291). -/
  | userInterruptEntry
  /-- DEFERRED_TRAP (R201). -/
  | deferredTrap
  /-- TIMER_EXPIRY (R402). -/
  | timerExpiry
  /-- QDEADLK (R86). -/
  | qdeadlk
  /-- LOAD_RESPONSE (R45). -/
  | loadResponse
  /-- AMO_RESPONSE (R195). -/
  | amoResponse
  /-- HOME_REQUEST (R161). -/
  | homeRequest
  /-- FORWARDED_REQUEST (R363). -/
  | forwardedRequest
  /-- WRITE_ACK (R166). -/
  | writeAck
  /-- AMO_AT_HOME (R190). -/
  | amoAtHome
  /-- ETCH_CALL_EXEC (R207). -/
  | etchCallExec
  /-- PARKED_REPLAY (R198). -/
  | parkedReplay
  /-- ROUTINE_FETCH_DONE (R210). -/
  | routineFetchDone
  /-- CLUSTER_RESEND (R139). -/
  | clusterResend
  /-- PAGE_WALK (R117). -/
  | pageWalk
  /-- QLD_DATA_ARRIVAL (R143). -/
  | qldDataArrival
  /-- QSTART_COPY_DONE (R146). -/
  | qstartCopyDone
  /-- VREDQ_PASS (R230). -/
  | vredqPass
  /-- CPY_SECTOR_WRITE (R277). -/
  | cpySectorWrite
  /-- ENGINE_COMPLETION_POST (R271). -/
  | engineCompletionPost
  /-- COLLECTIVE_TIMEOUT (R285). -/
  | collectiveTimeout
  /-- DESCENT_STEP (R301). -/
  | descentStep
  /-- BATCH_POST (R303). -/
  | batchPost
  /-- BEXP_LEAF_COMMIT (R304). -/
  | bexpLeafCommit
  /-- BBACK_PASS (R306). -/
  | bbackPass
  /-- BDROP_PASS (R307). -/
  | bdropPass
  /-- RECLAIM_APPEND (R308). -/
  | reclaimAppend
  /-- COMPACT_COMMIT (R318). -/
  | compactCommit
  /-- CSIGN_TIMEOUT (R318). -/
  | csignTimeout
  /-- TRANSFER_START (R325). -/
  | transferStart
  /-- HATCH_SLOT (R327). -/
  | hatchSlot
  /-- REMOTE_BEAT_ARRIVAL (R326). -/
  | remoteBeatArrival
  /-- TRANSFER_END (R327). -/
  | transferEnd
  /-- SUPERSTEP_BARRIER (R328). -/
  | superstepBarrier
  /-- ROLLBACK (R338). -/
  | rollback
  /-- COMPACT_DISSOLVE (R336). -/
  | compactDissolve
  /-- BAR_COMPLETE (R332). -/
  | barComplete
  /-- GANG_WINDOW_OPEN (R260). -/
  | gangWindowOpen
  /-- MGANG_TIMEOUT (R260). -/
  | mgangTimeout
  /-- LAUNCH_TRIGGER (R374). -/
  | launchTrigger
  /-- GANG_PLACE (R381). -/
  | gangPlace
  /-- HEAD_AGE_TICK (R385). -/
  | headAgeTick
  /-- RUNB_END_PASS (R383). -/
  | runbEndPass
  /-- GRID_STALL (R386). -/
  | gridStall
  /-- DOMAIN_HOLD (R387). -/
  | domainHold
  /-- DOMAIN_HELD (R387). -/
  | domainHeld
  /-- DOMAIN_START (R387). -/
  | domainStart
  /-- DOMAIN_HOLD_TIMEOUT (R387). -/
  | domainHoldTimeout
  /-- DOMAIN_RELEASED (R387). -/
  | domainReleased
  /-- DOMAIN_RELEASE (R387). -/
  | domainRelease
  /-- MSG_ARRIVAL (R351). -/
  | msgArrival
  /-- MSG_RETRY (R351). -/
  | msgRetry
  /-- RLD_RST_REPLY (R354). -/
  | rldRstReply
  /-- REFUSAL_ARRIVAL (R368). -/
  | refusalArrival
  /-- REMOTE_TIMEOUT (R368). -/
  | remoteTimeout
  /-- ROUTER_ARBITRATE (R364). -/
  | routerArbitrate
  /-- ROUTER_AGE_TICK (R364). -/
  | routerAgeTick
  /-- LINK_RETRAIN (R365). -/
  | linkRetrain
  /-- VC_MERGE (R366). -/
  | vcMerge
  /-- LINK_AUDIT (R369). -/
  | linkAudit
  /-- PREEMPT_REQUEST (R412). -/
  | preemptRequest
  /-- PROOF_SAVE (R415). -/
  | proofSave
  /-- GANG_RESUME (R416). -/
  | gangResume
  /-- PGATE_COMMIT (R421). -/
  | pgateCommit
  /-- TILE_POWER_UP (R408). -/
  | tilePowerUp
  /-- DOORBELL (R420). -/
  | doorbell
  /-- REG_SPACE_WRITE (R113). -/
  | regSpaceWrite
  /-- CTXKILL (R427). -/
  | ctxkill
  /-- ERRCLR (R424). -/
  | errclr
  /-- RESETVEC (R457). -/
  | resetvec
  /-- ERRINJ_INJECT (R447). -/
  | errinjInject
  /-- ERRINJ_SCRUB (R448). -/
  | errinjScrub
  /-- PREQ_PREEMPT_HOLD (R455). -/
  | preqPreemptHold
  /-- PREQ_RELEASE (R455). -/
  | preqRelease
  /-- HOST_MEM_WRITE (R431). -/
  | hostMemWrite
  /-- HOST_MEM_READ (R431). -/
  | hostMemRead
  /-- BIAS_FLIP_HOST (R434). -/
  | biasFlipHost
  /-- BIAS_FLIP_DEVICE (R434). -/
  | biasFlipDevice
  /-- BIRSP (R432). -/
  | birsp
  /-- BIAS_FLIP_DONE (R434). -/
  | biasFlipDone
  /-- CORE_DEVICE_ACCESS (R436). -/
  | coreDeviceAccess
  /-- DCTX (R438). -/
  | dctx
  /-- PLDM_FW_UPDATE (R443). -/
  | pldmFwUpdate
  /-- FW_ACTIVATE (R443). -/
  | fwActivate
  /-- FW_ACTIVATE_TIMEOUT (R443). -/
  | fwActivateTimeout
  /-- SPDM_MEASUREMENT (R441). -/
  | spdmMeasurement
  /-- PLDM_SENSOR_READ (R442). -/
  | pldmSensorRead
  /-- PLDM_POWER_CAP (R442). -/
  | pldmPowerCap
  /-- TILE_SPARE_REMAP (R14). -/
  | tileSpareRemap
  /-- HBM_CHANNEL_SPARE (R444). -/
  | hbmChannelSpare
  /-- THERMAL_THROTTLE (R446). -/
  | thermalThrottle
  /-- THERMAL_SHUTDOWN (R446). -/
  | thermalShutdown
  /-- THERMAL_CONDITION_CLEARS (R446). -/
  | thermalConditionClears
  /-- SLICEMAP_WRITE (R114). -/
  | slicemapWrite
  /-- TILE_LOSS (R14). -/
  | tileLoss
  /-- FIRMWARE_READY (R443). -/
  | firmwareReady
  /-- FAILED_DEVICE_REMOVAL (R444). -/
  | failedDeviceRemoval
  /-- BIASSTAT_ERR_CLEAR (R434). -/
  | biasstatErrClear
  deriving DecidableEq, Repr

end Sys2Proof
end

