-- ==== Sys2Proof/WellFormed.lean ====
section
/-! DEFINITION. Which instructions are well formed: the limits on their fields. -/
namespace Sys2Proof

/-- The numbers of the control registers (16 R399); every other number is unassigned. -/
def controlRegisterExists (n : Nat) : Bool :=
  decide (n ≤ 0x1B) || (decide (0x20 ≤ n) && decide (n ≤ 0x26)) ||
    (decide (0x28 ≤ n) && decide (n ≤ 0x2C)) || (decide (0x40 ≤ n) && decide (n ≤ 0x45))

/-- A register that starts a block of four and carries no part of it past x31 or to x0
(11 R270, 12 R309, 15 R377): 1 to 28. -/
def blockReg (a : XReg) : Bool := decide (1 ≤ a.toNat) && decide (a.toNat ≤ 28)

/-- The limits that the entries of the spec put on the fields of a word (02 R39).
A word that breaks one is no instruction and traps ILLOP.
The steps without a word have no limit of this kind. -/
def Instr.wellFormed : Instr → Bool
  | .add _ _ _ _ => true
  | .sub _ _ _ _ => true
  | .and _ _ _ _ => true
  | .or _ _ _ _ => true
  | .xor _ _ _ _ => true
  | .andn _ _ _ _ => true
  | .orn _ _ _ _ => true
  | .sll _ _ _ _ => true
  | .srl _ _ _ _ => true
  | .sra _ _ _ _ => true
  | .rol _ _ _ _ => true
  | .ror _ _ _ _ => true
  | .slt _ _ _ _ => true
  | .sltu _ _ _ _ => true
  | .min _ _ _ _ => true
  | .max _ _ _ _ => true
  | .minu _ _ _ _ => true
  | .maxu _ _ _ _ => true
  | .mul _ _ _ _ => true
  | .mulh _ _ _ _ => true
  | .mulhu _ _ _ _ => true
  | .mulhsu _ _ _ _ => true
  | .div _ _ _ _ => true
  | .divu _ _ _ _ => true
  | .rem _ _ _ _ => true
  | .remu _ _ _ _ => true
  | .clz _ _ _ => true
  | .ctz _ _ _ => true
  | .cpop _ _ _ => true
  | .sextb _ _ _ => true
  | .sexth _ _ _ => true
  | .sextw _ _ _ => true
  | .zextw _ _ _ => true
  | .shadd1 _ _ _ _ => true
  | .shadd2 _ _ _ _ => true
  | .shadd3 _ _ _ _ => true
  | .addi _ _ _ _ => true
  | .andi _ _ _ _ => true
  | .ori _ _ _ _ => true
  | .xori _ _ _ _ => true
  | .slti _ _ _ _ => true
  | .sltiu _ _ _ _ => true
  | .slli _ _ _ _ => true
  | .srli _ _ _ _ => true
  | .srai _ _ _ _ => true
  | .rori _ _ _ _ => true
  | .ldhi _ _ _ => true
  | .addpc _ _ _ => true
  | .beq _ _ _ _ => true
  | .bne _ _ _ _ => true
  | .blt _ _ _ _ => true
  | .bge _ _ _ _ => true
  | .bltu _ _ _ _ => true
  | .bgeu _ _ _ _ => true
  | .jal _ _ _ => true
  | .jalr _ _ _ _ => true
  | .frame _ _ _ _ _ _ _ => true
  | .bqt _ _ => true
  | .bqf _ _ => true
  | .bqpush _ _ _ => true
  | .qld _ _ _ _ => true
  | .qst _ _ _ _ => true
  | .qbind _ _ => true
  | .qunbind _ _ => true
  | .qstart _ _ _ _ => true
  | .qstop _ _ => true
  | .qwait _ _ => true
  | .lb _ _ _ _ => true
  | .lh _ _ _ _ => true
  | .lw _ _ _ _ => true
  | .ld _ _ _ _ => true
  | .lbu _ _ _ _ => true
  | .lhu _ _ _ _ => true
  | .lwu _ _ _ _ => true
  | .sb _ _ _ _ => true
  | .sh _ _ _ _ => true
  | .sw _ _ _ _ => true
  | .sd _ _ _ _ => true
  | .ldw _ _ _ _ => true
  | .ldwe _ _ _ _ => true
  | .stw _ _ _ _ => true
  | .stf _ _ _ _ => true
  | .ldf _ _ _ _ => true
  | .vld _ _ _ _ _ => true
  | .vst _ _ _ _ _ => true
  | .vlds _ _ _ _ _ _ => true
  | .vsts _ _ _ _ _ _ => true
  | .vgath _ _ _ _ _ w => decide (2 ≤ w.toNat)
  | .vscat _ _ _ _ _ w => decide (2 ≤ w.toNat)
  | .tld _ _ _ _ => true
  | .tst _ _ _ _ => true
  | .cpref _ _ => true
  | .cclean _ _ => true
  | .cflush _ _ => true
  | .cinv _ _ => true
  | .feget _ _ _ => true
  | .feset _ _ _ => true
  | .fence _ q r c u => (q == 1#1 || r == 1#1) && decide (c.toNat ≤ 4) && (u == 0#1 || q == 1#1)
  | .fencem _ _ _ => true
  | .amoadd _ _ _ _ _ _ => true
  | .amoand _ _ _ _ _ _ => true
  | .amoor _ _ _ _ _ _ => true
  | .amoxor _ _ _ _ _ _ => true
  | .amomin _ _ _ _ _ _ => true
  | .amomax _ _ _ _ _ _ => true
  | .amominu _ _ _ _ _ _ => true
  | .amomaxu _ _ _ _ _ _ => true
  | .amoswap _ _ _ _ _ _ => true
  | .amofadd _ _ _ _ _ => true
  | .amofmax _ _ _ _ _ => true
  | .amoincs _ _ _ _ _ _ => true
  | .amocas _ _ _ _ _ _ => true
  | .etcall _ d _ b _ _ => decide (d.toNat ≠ 31) && decide (b.toNat ≤ 28)
  | .etinst _ _ _ _ => true
  | .etdrop _ _ => true
  | .etflush _ => true
  | .etquery _ _ _ => true
  | .vadd _ _ _ _ _ t => t.isIntFp
  | .vsub _ _ _ _ _ t => t.isIntFp
  | .vmul _ _ _ _ _ t => t.isIntFp
  | .vmulh _ _ _ _ _ t => t.isInt
  | .vfma _ _ _ _ _ t => t.isIntFp
  | .vfms _ _ _ _ _ t => t.isIntFp
  | .vfnma _ _ _ _ _ t => t.isIntFp
  | .vdiv _ _ _ _ _ t => t.isFp
  | .vsqrt _ _ _ _ t => t.isFp
  | .vmin _ _ _ _ _ t => t.isIntFp
  | .vmax _ _ _ _ _ t => t.isIntFp
  | .vabs _ _ _ _ t => t.isIntFp
  | .vneg _ _ _ _ t => t.isIntFp
  | .vand _ _ _ _ _ t => t.isInt
  | .vor _ _ _ _ _ t => t.isInt
  | .vxor _ _ _ _ _ t => t.isInt
  | .vsll _ _ _ _ _ t => t.isInt
  | .vsrl _ _ _ _ _ t => t.isInt
  | .vsra _ _ _ _ _ t => t.isInt
  | .vsadd _ _ _ _ _ t => t.isInt
  | .vssub _ _ _ _ _ t => t.isInt
  | .vcmpeq _ _ _ _ _ t => t.isIntFp
  | .vcmplt _ _ _ _ _ t => t.isIntFp
  | .vcmple _ _ _ _ _ t => t.isIntFp
  | .vsel _ _ _ _ _ t => t.isMove
  | .vmv _ _ _ _ t => t.isMove
  | .vbcast _ _ _ _ t => t.isMove
  | .vmvx _ _ _ _ t => t.isMove
  | .vslideup _ _ _ _ _ t => t.isMove
  | .vslidedn _ _ _ _ _ t => t.isMove
  | .vperm _ _ _ _ _ t => t.isMove
  | .vcompress _ _ _ _ t => t.isMove
  | .vexpand _ _ _ _ t => t.isMove
  | .vredsum _ _ _ _ _ t => t.isIntFp
  | .vredmax _ _ _ _ _ t => t.isIntFp
  | .vredmin _ _ _ _ _ t => t.isIntFp
  | .vredq _ _ _ _ _ t => t.isIntFp
  | .vdot4 _ _ _ _ _ t => t.isDot
  | .vexp2 _ _ _ _ t => t.isFp
  | .vlog2 _ _ _ _ t => t.isFp
  | .vrcp _ _ _ _ t => t.isFp
  | .vrsq _ _ _ _ t => t.isFp
  | .mand _ _ _ _ => true
  | .mor _ _ _ _ => true
  | .mxor _ _ _ _ => true
  | .mnot _ _ _ => true
  | .mcnt _ _ _ => true
  | .mfirst _ _ _ => true
  | .mset _ _ _ => true
  | .mget _ _ _ => true
  | .vcvt _ _ _ e _ t => ElemType.cvtPair e t
  | .vcvtn _ _ _ e _ t => ElemType.cvtnPair e t
  | .vcvtwl _ _ _ t _ => t.widened.isSome
  | .vcvtwh _ _ _ t _ => t.widened.isSome
  | .vplane _ _ _ => true
  | .vunplane _ _ _ => true
  | .vscaleb _ _ _ _ t => t.isFp
  | .vclass _ _ _ t => t.isClass
  | .setshape _ _ _ _ => true
  | .mgang _ _ => true
  | .mma _ _ _ _ => true
  | .mmag _ _ _ _ v => decide (v.toNat ≤ 30)
  | .mdrain _ _ _ _ => true
  | .mzero _ _ => true
  | .mpsum _ d _ _ _ => decide (d.toNat % 4 = 0)
  | .mcfg _ _ => true
  | .mscale _ _ _ => true
  | .tmov _ _ _ => true
  | .tmovv _ _ _ _ _ => true
  | .ttrans _ _ z _ => decide (z.toNat ≤ 2)
  | .mstatr _ _ _ => true
  | .tclr _ _ => true
  | .cpy _ _ a => blockReg a
  | .cpyd _ _ _ => true
  | .cpyfill _ _ a => blockReg a
  | .rrot _ _ a _ => blockReg a
  | .allred _ _ a => blockReg a
  | .bcastc _ _ a => blockReg a
  | .inbdq _ d => decide (d.toNat ≤ 28)
  | .inbpeek _ _ => true
  | .inbcfg _ _ _ => true
  | .bcfg _ _ a => blockReg a
  | .broot _ _ a => blockReg a
  | .bdesc _ _ a => blockReg a
  | .bexp _ _ a => blockReg a
  | .bback _ _ a => blockReg a
  | .bpool _ _ a => blockReg a
  | .breroot _ _ a => blockReg a
  | .bstat _ _ _ _ => true
  | .bdrop _ _ a => blockReg a
  | .sxmit _ _ _ _ => true
  | .ssel _ _ _ _ => true
  | .csign _ _ => true
  | .bardom _ _ _ => true
  | .bar _ _ => true
  | .snap _ _ _ => true
  | .cstat _ _ _ => true
  | .send _ _ b => decide (b.toNat ≤ 28)
  | .sendv _ _ _ => true
  | .recv _ d _ => decide (d.toNat ≤ 27)
  | .recvv _ _ _ => true
  | .recvtry _ d _ => decide (d.toNat ≤ 27)
  | .rld _ _ _ => true
  | .rst _ _ _ _ => true
  | .chopen _ _ => true
  | .chclose _ _ _ => true
  | .spawn _ _ _ => true
  | .taskq _ a => blockReg a
  | .taskend _ => true
  | .gdone _ => true
  | .mboxreg _ _ _ _ => true
  | .crr _ _ n => controlRegisterExists n.toNat
  | .crw _ _ n => controlRegisterExists n.toNat
  | .crset _ _ n => controlRegisterExists n.toNat
  | .crclr _ _ n => controlRegisterExists n.toNat
  | .tlbinv _ _ _ => true
  | .pause _ => true
  | .pgate _ _ _ => true
  | .ctxsave _ _ _ => true
  | .ctxload _ _ => true
  | .errrd _ d _ => decide (d.toNat ≤ 29)
  | .fencei => true
  | .fencea => true
  | .uiret => true
  | .cdiss => true
  | .sstep => true
  | .sxend => true
  | .ecall => true
  | .ebrk => true
  | .eret => true
  | .wfi => true
  | .halt => true
  | .deviceReset => true
  | .powerOnBringup => true
  | .hartRelease => true
  | .interruptEntry => true
  | .userInterruptEntry => true
  | .deferredTrap => true
  | .timerExpiry => true
  | .qdeadlk => true
  | .loadResponse => true
  | .amoResponse => true
  | .homeRequest => true
  | .forwardedRequest => true
  | .writeAck => true
  | .amoAtHome => true
  | .etchCallExec => true
  | .parkedReplay => true
  | .routineFetchDone => true
  | .clusterResend => true
  | .pageWalk => true
  | .qldDataArrival => true
  | .qstartCopyDone => true
  | .vredqPass => true
  | .cpySectorWrite => true
  | .engineCompletionPost => true
  | .collectiveTimeout => true
  | .descentStep => true
  | .batchPost => true
  | .bexpLeafCommit => true
  | .bbackPass => true
  | .bdropPass => true
  | .reclaimAppend => true
  | .compactCommit => true
  | .csignTimeout => true
  | .transferStart => true
  | .hatchSlot => true
  | .remoteBeatArrival => true
  | .transferEnd => true
  | .superstepBarrier => true
  | .rollback => true
  | .compactDissolve => true
  | .barComplete => true
  | .gangWindowOpen => true
  | .mgangTimeout => true
  | .launchTrigger => true
  | .gangPlace => true
  | .headAgeTick => true
  | .runbEndPass => true
  | .gridStall => true
  | .domainHold => true
  | .domainHeld => true
  | .domainStart => true
  | .domainHoldTimeout => true
  | .domainReleased => true
  | .domainRelease => true
  | .msgArrival => true
  | .msgRetry => true
  | .rldRstReply => true
  | .refusalArrival => true
  | .remoteTimeout => true
  | .routerArbitrate => true
  | .routerAgeTick => true
  | .linkRetrain => true
  | .vcMerge => true
  | .linkAudit => true
  | .preemptRequest => true
  | .proofSave => true
  | .gangResume => true
  | .pgateCommit => true
  | .tilePowerUp => true
  | .doorbell => true
  | .regSpaceWrite => true
  | .ctxkill => true
  | .errclr => true
  | .resetvec => true
  | .errinjInject => true
  | .errinjScrub => true
  | .preqPreemptHold => true
  | .preqRelease => true
  | .hostMemWrite => true
  | .hostMemRead => true
  | .biasFlipHost => true
  | .biasFlipDevice => true
  | .birsp => true
  | .biasFlipDone => true
  | .coreDeviceAccess => true
  | .dctx => true
  | .pldmFwUpdate => true
  | .fwActivate => true
  | .fwActivateTimeout => true
  | .spdmMeasurement => true
  | .pldmSensorRead => true
  | .pldmPowerCap => true
  | .tileSpareRemap => true
  | .hbmChannelSpare => true
  | .thermalThrottle => true
  | .thermalShutdown => true
  | .thermalConditionClears => true
  | .slicemapWrite => true
  | .tileLoss => true
  | .firmwareReady => true
  | .failedDeviceRemoval => true
  | .biasstatErrClear => true

end Sys2Proof
end

