-- ==== Sys2Proof/Decode.lean ====
section
/-! DEFINITION. From bits to instructions, and back. Every word that is no instruction is
rejected under a name that says which part of 02 R39 it breaks. -/
namespace Sys2Proof

/-- Why a word is no instruction (02 R39). Each of them traps ILLOP. -/
inductive Reject where
  /-- MAJOR 0x00, the all-zero word included. -/
  | majorIllegal
  /-- MAJOR is marked reserved in R38. -/
  | majorReserved
  /-- The funct value of a grouped major is unassigned. -/
  | functUnassigned
  /-- A reserved field or bit is nonzero. -/
  | reservedField
  /-- The element-type code is 15. -/
  | typeReserved
  /-- A field holds a value outside the limits of the entry. -/
  | fieldLimit
  /-- Fewer than four bytes are left to read. -/
  | tooShort
  deriving DecidableEq, Repr

/-- MAJOR 0x01: the funct in bits [6:0] chooses the instruction (02 R38). -/
def decodeIntr (w : BitVec 32) : Except Reject Instr :=
  match (slice w 0 7).toNat with
  | 0 => .ok (.add (slice w 29 3) (slice w 17 5) (slice w 12 5) (slice w 7 5))
  | 1 => .ok (.sub (slice w 29 3) (slice w 17 5) (slice w 12 5) (slice w 7 5))
  | 2 => .ok (.and (slice w 29 3) (slice w 17 5) (slice w 12 5) (slice w 7 5))
  | 3 => .ok (.or (slice w 29 3) (slice w 17 5) (slice w 12 5) (slice w 7 5))
  | 4 => .ok (.xor (slice w 29 3) (slice w 17 5) (slice w 12 5) (slice w 7 5))
  | 5 => .ok (.andn (slice w 29 3) (slice w 17 5) (slice w 12 5) (slice w 7 5))
  | 6 => .ok (.orn (slice w 29 3) (slice w 17 5) (slice w 12 5) (slice w 7 5))
  | 7 => .ok (.sll (slice w 29 3) (slice w 17 5) (slice w 12 5) (slice w 7 5))
  | 8 => .ok (.srl (slice w 29 3) (slice w 17 5) (slice w 12 5) (slice w 7 5))
  | 9 => .ok (.sra (slice w 29 3) (slice w 17 5) (slice w 12 5) (slice w 7 5))
  | 10 => .ok (.rol (slice w 29 3) (slice w 17 5) (slice w 12 5) (slice w 7 5))
  | 11 => .ok (.ror (slice w 29 3) (slice w 17 5) (slice w 12 5) (slice w 7 5))
  | 12 => .ok (.slt (slice w 29 3) (slice w 17 5) (slice w 12 5) (slice w 7 5))
  | 13 => .ok (.sltu (slice w 29 3) (slice w 17 5) (slice w 12 5) (slice w 7 5))
  | 14 => .ok (.min (slice w 29 3) (slice w 17 5) (slice w 12 5) (slice w 7 5))
  | 15 => .ok (.max (slice w 29 3) (slice w 17 5) (slice w 12 5) (slice w 7 5))
  | 16 => .ok (.minu (slice w 29 3) (slice w 17 5) (slice w 12 5) (slice w 7 5))
  | 17 => .ok (.maxu (slice w 29 3) (slice w 17 5) (slice w 12 5) (slice w 7 5))
  | 18 => .ok (.mul (slice w 29 3) (slice w 17 5) (slice w 12 5) (slice w 7 5))
  | 19 => .ok (.mulh (slice w 29 3) (slice w 17 5) (slice w 12 5) (slice w 7 5))
  | 20 => .ok (.mulhu (slice w 29 3) (slice w 17 5) (slice w 12 5) (slice w 7 5))
  | 21 => .ok (.mulhsu (slice w 29 3) (slice w 17 5) (slice w 12 5) (slice w 7 5))
  | 22 => .ok (.div (slice w 29 3) (slice w 17 5) (slice w 12 5) (slice w 7 5))
  | 23 => .ok (.divu (slice w 29 3) (slice w 17 5) (slice w 12 5) (slice w 7 5))
  | 24 => .ok (.rem (slice w 29 3) (slice w 17 5) (slice w 12 5) (slice w 7 5))
  | 25 => .ok (.remu (slice w 29 3) (slice w 17 5) (slice w 12 5) (slice w 7 5))
  | 26 => if slice w 7 5 = 0#5 then .ok (.clz (slice w 29 3) (slice w 17 5) (slice w 12 5)) else .error .reservedField
  | 27 => if slice w 7 5 = 0#5 then .ok (.ctz (slice w 29 3) (slice w 17 5) (slice w 12 5)) else .error .reservedField
  | 28 => if slice w 7 5 = 0#5 then .ok (.cpop (slice w 29 3) (slice w 17 5) (slice w 12 5)) else .error .reservedField
  | 29 => if slice w 7 5 = 0#5 then .ok (.sextb (slice w 29 3) (slice w 17 5) (slice w 12 5)) else .error .reservedField
  | 30 => if slice w 7 5 = 0#5 then .ok (.sexth (slice w 29 3) (slice w 17 5) (slice w 12 5)) else .error .reservedField
  | 31 => if slice w 7 5 = 0#5 then .ok (.sextw (slice w 29 3) (slice w 17 5) (slice w 12 5)) else .error .reservedField
  | 32 => if slice w 7 5 = 0#5 then .ok (.zextw (slice w 29 3) (slice w 17 5) (slice w 12 5)) else .error .reservedField
  | 33 => .ok (.shadd1 (slice w 29 3) (slice w 17 5) (slice w 12 5) (slice w 7 5))
  | 34 => .ok (.shadd2 (slice w 29 3) (slice w 17 5) (slice w 12 5) (slice w 7 5))
  | 35 => .ok (.shadd3 (slice w 29 3) (slice w 17 5) (slice w 12 5) (slice w 7 5))
  | _ => .error .functUnassigned

/-- MAJOR 0x08: the funct in bits [11:10] chooses the instruction (02 R38). -/
def decodeShifti (w : BitVec 32) : Except Reject Instr :=
  match (slice w 10 2).toNat with
  | 0 => if slice w 6 4 = 0#4 then .ok (.slli (slice w 29 3) (slice w 17 5) (slice w 12 5) (slice w 0 6)) else .error .reservedField
  | 1 => if slice w 6 4 = 0#4 then .ok (.srli (slice w 29 3) (slice w 17 5) (slice w 12 5) (slice w 0 6)) else .error .reservedField
  | 2 => if slice w 6 4 = 0#4 then .ok (.srai (slice w 29 3) (slice w 17 5) (slice w 12 5) (slice w 0 6)) else .error .reservedField
  | 3 => if slice w 6 4 = 0#4 then .ok (.rori (slice w 29 3) (slice w 17 5) (slice w 12 5) (slice w 0 6)) else .error .reservedField
  | _ => .error .functUnassigned

/-- MAJOR 0x1E: the funct in bits [6:0] chooses the instruction (02 R38). -/
def decodeQctl (w : BitVec 32) : Except Reject Instr :=
  match (slice w 0 7).toNat with
  | 0 => if slice w 17 5 = 0#5 ∧ slice w 7 5 = 0#5 then .ok (.qbind (slice w 29 3) (slice w 12 5)) else .error .reservedField
  | 1 => if slice w 17 5 = 0#5 ∧ slice w 7 5 = 0#5 then .ok (.qunbind (slice w 29 3) (slice w 12 5)) else .error .reservedField
  | 2 => if slice w 18 4 = 0#4 then .ok (.qstart (slice w 29 3) (slice w 17 1) (slice w 12 5) (slice w 7 5)) else .error .reservedField
  | 3 => if slice w 18 4 = 0#4 ∧ slice w 7 10 = 0#10 then .ok (.qstop (slice w 29 3) (slice w 17 1)) else .error .reservedField
  | 4 => if slice w 18 4 = 0#4 ∧ slice w 7 10 = 0#10 then .ok (.qwait (slice w 29 3) (slice w 17 1)) else .error .reservedField
  | _ => .error .functUnassigned

/-- MAJOR 0x38: the funct in bits [6:0] chooses the instruction (02 R38). -/
def decodeCache (w : BitVec 32) : Except Reject Instr :=
  match (slice w 0 7).toNat with
  | 0 => if slice w 17 5 = 0#5 ∧ slice w 7 5 = 0#5 then .ok (.cpref (slice w 29 3) (slice w 12 5)) else .error .reservedField
  | 1 => if slice w 17 5 = 0#5 ∧ slice w 7 5 = 0#5 then .ok (.cclean (slice w 29 3) (slice w 12 5)) else .error .reservedField
  | 2 => if slice w 17 5 = 0#5 ∧ slice w 7 5 = 0#5 then .ok (.cflush (slice w 29 3) (slice w 12 5)) else .error .reservedField
  | 3 => if slice w 17 5 = 0#5 ∧ slice w 7 5 = 0#5 then .ok (.cinv (slice w 29 3) (slice w 12 5)) else .error .reservedField
  | 4 => if slice w 7 5 = 0#5 then .ok (.feget (slice w 29 3) (slice w 17 5) (slice w 12 5)) else .error .reservedField
  | 5 => if slice w 17 5 = 0#5 then .ok (.feset (slice w 29 3) (slice w 12 5) (slice w 7 5)) else .error .reservedField
  | _ => .error .functUnassigned

/-- MAJOR 0x39: the funct in bits [6:0] chooses the instruction (02 R38). -/
def decodeFenceop (w : BitVec 32) : Except Reject Instr :=
  match (slice w 0 7).toNat with
  | 0 => if slice w 13 4 = 0#4 ∧ slice w 7 5 = 0#5 then .ok (.fence (slice w 29 3) (slice w 21 1) (slice w 20 1) (slice w 17 3) (slice w 12 1)) else .error .reservedField
  | 2 => if slice w 17 5 = 0#5 then .ok (.fencem (slice w 29 3) (slice w 12 5) (slice w 7 5)) else .error .reservedField
  | 1 => if slice w 7 15 = 0#15 then .ok (.fencei) else .error .reservedField
  | 3 => if slice w 7 15 = 0#15 then .ok (.fencea) else .error .reservedField
  | _ => .error .functUnassigned

/-- MAJOR 0x3A: the funct in bits [6:3] chooses the instruction (02 R38). -/
def decodeAmo (w : BitVec 32) : Except Reject Instr :=
  match (slice w 3 4).toNat with
  | 0 => .ok (.amoadd (slice w 29 3) (slice w 17 5) (slice w 12 5) (slice w 7 5) (slice w 2 1) (slice w 0 2))
  | 1 => .ok (.amoand (slice w 29 3) (slice w 17 5) (slice w 12 5) (slice w 7 5) (slice w 2 1) (slice w 0 2))
  | 2 => .ok (.amoor (slice w 29 3) (slice w 17 5) (slice w 12 5) (slice w 7 5) (slice w 2 1) (slice w 0 2))
  | 3 => .ok (.amoxor (slice w 29 3) (slice w 17 5) (slice w 12 5) (slice w 7 5) (slice w 2 1) (slice w 0 2))
  | 4 => .ok (.amomin (slice w 29 3) (slice w 17 5) (slice w 12 5) (slice w 7 5) (slice w 2 1) (slice w 0 2))
  | 5 => .ok (.amomax (slice w 29 3) (slice w 17 5) (slice w 12 5) (slice w 7 5) (slice w 2 1) (slice w 0 2))
  | 6 => .ok (.amominu (slice w 29 3) (slice w 17 5) (slice w 12 5) (slice w 7 5) (slice w 2 1) (slice w 0 2))
  | 7 => .ok (.amomaxu (slice w 29 3) (slice w 17 5) (slice w 12 5) (slice w 7 5) (slice w 2 1) (slice w 0 2))
  | 8 => .ok (.amoswap (slice w 29 3) (slice w 17 5) (slice w 12 5) (slice w 7 5) (slice w 2 1) (slice w 0 2))
  | 9 => if slice w 2 1 = 0#1 then .ok (.amofadd (slice w 29 3) (slice w 17 5) (slice w 12 5) (slice w 7 5) (slice w 0 2)) else .error .reservedField
  | 10 => if slice w 2 1 = 0#1 then .ok (.amofmax (slice w 29 3) (slice w 17 5) (slice w 12 5) (slice w 7 5) (slice w 0 2)) else .error .reservedField
  | 11 => .ok (.amoincs (slice w 29 3) (slice w 17 5) (slice w 12 5) (slice w 7 5) (slice w 2 1) (slice w 0 2))
  | _ => .error .functUnassigned

/-- MAJOR 0x3D: the funct in bits [6:0] chooses the instruction (02 R38). -/
def decodeEtctl (w : BitVec 32) : Except Reject Instr :=
  match (slice w 0 7).toNat with
  | 0 => .ok (.etinst (slice w 29 3) (slice w 17 5) (slice w 12 5) (slice w 7 5))
  | 1 => if slice w 12 10 = 0#10 then .ok (.etdrop (slice w 29 3) (slice w 7 5)) else .error .reservedField
  | 2 => if slice w 7 15 = 0#15 then .ok (.etflush (slice w 29 3)) else .error .reservedField
  | 3 => if slice w 12 5 = 0#5 then .ok (.etquery (slice w 29 3) (slice w 17 5) (slice w 7 5)) else .error .reservedField
  | _ => .error .functUnassigned

/-- MAJOR 0x6A: the funct in bits [6:0] chooses the instruction (02 R38). -/
def decodeMop (w : BitVec 32) : Except Reject Instr :=
  match (slice w 0 7).toNat with
  | 0 => if slice w 20 2 = 0#2 ∧ slice w 15 2 = 0#2 ∧ slice w 10 2 = 0#2 then .ok (.mand (slice w 29 3) (slice w 17 3) (slice w 12 3) (slice w 7 3)) else .error .reservedField
  | 1 => if slice w 20 2 = 0#2 ∧ slice w 15 2 = 0#2 ∧ slice w 10 2 = 0#2 then .ok (.mor (slice w 29 3) (slice w 17 3) (slice w 12 3) (slice w 7 3)) else .error .reservedField
  | 2 => if slice w 20 2 = 0#2 ∧ slice w 15 2 = 0#2 ∧ slice w 10 2 = 0#2 then .ok (.mxor (slice w 29 3) (slice w 17 3) (slice w 12 3) (slice w 7 3)) else .error .reservedField
  | 3 => if slice w 20 2 = 0#2 ∧ slice w 15 2 = 0#2 ∧ slice w 7 5 = 0#5 then .ok (.mnot (slice w 29 3) (slice w 17 3) (slice w 12 3)) else .error .reservedField
  | 4 => if slice w 15 2 = 0#2 ∧ slice w 7 5 = 0#5 then .ok (.mcnt (slice w 29 3) (slice w 17 5) (slice w 12 3)) else .error .reservedField
  | 5 => if slice w 15 2 = 0#2 ∧ slice w 7 5 = 0#5 then .ok (.mfirst (slice w 29 3) (slice w 17 5) (slice w 12 3)) else .error .reservedField
  | 6 => if slice w 20 2 = 0#2 ∧ slice w 7 5 = 0#5 then .ok (.mset (slice w 29 3) (slice w 17 3) (slice w 12 5)) else .error .reservedField
  | 7 => if slice w 15 2 = 0#2 ∧ slice w 7 5 = 0#5 then .ok (.mget (slice w 29 3) (slice w 17 5) (slice w 12 3)) else .error .reservedField
  | _ => .error .functUnassigned

/-- MAJOR 0x6D: the funct in bits [0:0] chooses the instruction (02 R38). -/
def decodeVcvtw (w : BitVec 32) : Except Reject Instr :=
  match (slice w 0 1).toNat with
  | 0 => if slice w 7 1 = 0#1 ∧ slice w 1 3 = 0#3 then match ElemType.ofCode (slice w 8 4) with | none => .error .typeReserved | some t => .ok (.vcvtwl (slice w 29 3) (slice w 17 5) (slice w 12 5) t (slice w 4 3)) else .error .reservedField
  | 1 => if slice w 7 1 = 0#1 ∧ slice w 1 3 = 0#3 then match ElemType.ofCode (slice w 8 4) with | none => .error .typeReserved | some t => .ok (.vcvtwh (slice w 29 3) (slice w 17 5) (slice w 12 5) t (slice w 4 3)) else .error .reservedField
  | _ => .error .functUnassigned

/-- MAJOR 0x6E: the funct in bits [6:5] chooses the instruction (02 R38). -/
def decodeVfmt (w : BitVec 32) : Except Reject Instr :=
  match (slice w 5 2).toNat with
  | 0 => if slice w 7 5 = 0#5 ∧ slice w 0 5 = 14#5 then .ok (.vplane (slice w 29 3) (slice w 17 5) (slice w 12 5)) else .error .reservedField
  | 1 => if slice w 7 5 = 0#5 ∧ slice w 0 5 = 14#5 then .ok (.vunplane (slice w 29 3) (slice w 17 5) (slice w 12 5)) else .error .reservedField
  | 2 => if slice w 4 1 = 0#1 then match ElemType.ofCode (slice w 0 4) with | none => .error .typeReserved | some t => .ok (.vscaleb (slice w 29 3) (slice w 17 5) (slice w 12 5) (slice w 7 5) t) else .error .reservedField
  | 3 => if slice w 7 5 = 0#5 ∧ slice w 4 1 = 0#1 then match ElemType.ofCode (slice w 0 4) with | none => .error .typeReserved | some t => .ok (.vclass (slice w 29 3) (slice w 17 5) (slice w 12 5) t) else .error .reservedField
  | _ => .error .functUnassigned

/-- MAJOR 0x77: the funct in bits [6:0] chooses the instruction (02 R38). -/
def decodeMctl (w : BitVec 32) : Except Reject Instr :=
  match (slice w 0 7).toNat with
  | 0 => if slice w 17 5 = 0#5 ∧ slice w 7 5 = 0#5 then .ok (.mcfg (slice w 29 3) (slice w 12 5)) else .error .reservedField
  | 1 => if slice w 18 4 = 0#4 ∧ slice w 15 2 = 0#2 ∧ slice w 7 5 = 0#5 then .ok (.mscale (slice w 29 3) (slice w 17 1) (slice w 12 3)) else .error .reservedField
  | 2 => if slice w 20 2 = 0#2 ∧ slice w 15 2 = 0#2 ∧ slice w 7 5 = 0#5 then .ok (.tmov (slice w 29 3) (slice w 17 3) (slice w 12 3)) else .error .reservedField
  | 3 => if slice w 16 1 = 0#1 then .ok (.tmovv (slice w 29 3) (slice w 17 5) (slice w 15 1) (slice w 12 3) (slice w 7 5)) else .error .reservedField
  | 4 => if slice w 20 2 = 0#2 ∧ slice w 7 5 = 0#5 then .ok (.ttrans (slice w 29 3) (slice w 17 3) (slice w 15 2) (slice w 12 3)) else .error .reservedField
  | 5 => if slice w 7 5 = 0#5 then .ok (.mstatr (slice w 29 3) (slice w 17 5) (slice w 12 5)) else .error .reservedField
  | 6 => if slice w 20 2 = 0#2 ∧ slice w 7 10 = 0#10 then .ok (.tclr (slice w 29 3) (slice w 17 3)) else .error .reservedField
  | _ => .error .functUnassigned

/-- MAJOR 0x78: the funct in bits [6:0] chooses the instruction (02 R38). -/
def decodeEng (w : BitVec 32) : Except Reject Instr :=
  match (slice w 0 7).toNat with
  | 0 => if slice w 7 5 = 0#5 then .ok (.cpy (slice w 29 3) (slice w 17 5) (slice w 12 5)) else .error .reservedField
  | 1 => if slice w 7 5 = 0#5 then .ok (.cpyd (slice w 29 3) (slice w 17 5) (slice w 12 5)) else .error .reservedField
  | 2 => if slice w 7 5 = 0#5 then .ok (.cpyfill (slice w 29 3) (slice w 17 5) (slice w 12 5)) else .error .reservedField
  | 3 => .ok (.rrot (slice w 29 3) (slice w 17 5) (slice w 12 5) (slice w 7 5))
  | 4 => if slice w 7 5 = 0#5 then .ok (.allred (slice w 29 3) (slice w 17 5) (slice w 12 5)) else .error .reservedField
  | 5 => if slice w 7 5 = 0#5 then .ok (.bcastc (slice w 29 3) (slice w 17 5) (slice w 12 5)) else .error .reservedField
  | 6 => if slice w 7 10 = 0#10 then .ok (.inbdq (slice w 29 3) (slice w 17 5)) else .error .reservedField
  | 7 => if slice w 7 10 = 0#10 then .ok (.inbpeek (slice w 29 3) (slice w 17 5)) else .error .reservedField
  | 8 => if slice w 17 5 = 0#5 then .ok (.inbcfg (slice w 29 3) (slice w 12 5) (slice w 7 5)) else .error .reservedField
  | 9 => if slice w 7 15 = 0#15 then .ok (.uiret) else .error .reservedField
  | _ => .error .functUnassigned

/-- MAJOR 0x79: the funct in bits [6:0] chooses the instruction (02 R38). -/
def decodeBurin (w : BitVec 32) : Except Reject Instr :=
  match (slice w 0 7).toNat with
  | 0 => if slice w 7 5 = 0#5 then .ok (.bcfg (slice w 29 3) (slice w 17 5) (slice w 12 5)) else .error .reservedField
  | 1 => if slice w 7 5 = 0#5 then .ok (.broot (slice w 29 3) (slice w 17 5) (slice w 12 5)) else .error .reservedField
  | 2 => if slice w 7 5 = 0#5 then .ok (.bdesc (slice w 29 3) (slice w 17 5) (slice w 12 5)) else .error .reservedField
  | 3 => if slice w 7 5 = 0#5 then .ok (.bexp (slice w 29 3) (slice w 17 5) (slice w 12 5)) else .error .reservedField
  | 4 => if slice w 7 5 = 0#5 then .ok (.bback (slice w 29 3) (slice w 17 5) (slice w 12 5)) else .error .reservedField
  | 5 => if slice w 7 5 = 0#5 then .ok (.bpool (slice w 29 3) (slice w 17 5) (slice w 12 5)) else .error .reservedField
  | 6 => if slice w 7 5 = 0#5 then .ok (.breroot (slice w 29 3) (slice w 17 5) (slice w 12 5)) else .error .reservedField
  | 7 => .ok (.bstat (slice w 29 3) (slice w 17 5) (slice w 12 5) (slice w 7 5))
  | 8 => if slice w 7 5 = 0#5 then .ok (.bdrop (slice w 29 3) (slice w 17 5) (slice w 12 5)) else .error .reservedField
  | _ => .error .functUnassigned

/-- MAJOR 0x7C: the funct in bits [6:0] chooses the instruction (02 R38). -/
def decodeBsp (w : BitVec 32) : Except Reject Instr :=
  match (slice w 0 7).toNat with
  | 0 => if slice w 17 5 = 0#5 ∧ slice w 7 5 = 0#5 then .ok (.csign (slice w 29 3) (slice w 12 5)) else .error .reservedField
  | 3 => if slice w 17 5 = 0#5 then .ok (.bardom (slice w 29 3) (slice w 12 5) (slice w 7 5)) else .error .reservedField
  | 4 => if slice w 17 5 = 0#5 ∧ slice w 7 5 = 0#5 then .ok (.bar (slice w 29 3) (slice w 12 5)) else .error .reservedField
  | 5 => if slice w 7 5 = 0#5 then .ok (.snap (slice w 29 3) (slice w 17 5) (slice w 12 5)) else .error .reservedField
  | 6 => if slice w 7 5 = 0#5 then .ok (.cstat (slice w 29 3) (slice w 17 5) (slice w 12 5)) else .error .reservedField
  | 1 => if slice w 7 15 = 0#15 then .ok (.cdiss) else .error .reservedField
  | 2 => if slice w 7 15 = 0#15 then .ok (.sstep) else .error .reservedField
  | 7 => if slice w 7 15 = 0#15 then .ok (.sxend) else .error .reservedField
  | _ => .error .functUnassigned

/-- MAJOR 0x7D: the funct in bits [6:0] chooses the instruction (02 R38). -/
def decodeMsg (w : BitVec 32) : Except Reject Instr :=
  match (slice w 0 7).toNat with
  | 0 => if slice w 17 5 = 0#5 then .ok (.send (slice w 29 3) (slice w 12 5) (slice w 7 5)) else .error .reservedField
  | 1 => if slice w 17 5 = 0#5 then .ok (.sendv (slice w 29 3) (slice w 12 5) (slice w 7 5)) else .error .reservedField
  | 2 => if slice w 7 5 = 0#5 then .ok (.recv (slice w 29 3) (slice w 17 5) (slice w 12 5)) else .error .reservedField
  | 3 => if slice w 7 5 = 0#5 then .ok (.recvv (slice w 29 3) (slice w 17 5) (slice w 12 5)) else .error .reservedField
  | 4 => if slice w 7 5 = 0#5 then .ok (.recvtry (slice w 29 3) (slice w 17 5) (slice w 12 5)) else .error .reservedField
  | 5 => if slice w 17 5 = 0#5 then .ok (.rld (slice w 29 3) (slice w 12 5) (slice w 7 5)) else .error .reservedField
  | 6 => .ok (.rst (slice w 29 3) (slice w 17 5) (slice w 12 5) (slice w 7 5))
  | 7 => if slice w 17 5 = 0#5 ∧ slice w 7 5 = 0#5 then .ok (.chopen (slice w 29 3) (slice w 12 5)) else .error .reservedField
  | 8 => if slice w 7 5 = 0#5 then .ok (.chclose (slice w 29 3) (slice w 17 5) (slice w 12 5)) else .error .reservedField
  | _ => .error .functUnassigned

/-- MAJOR 0x7E: the funct in bits [6:0] chooses the instruction (02 R38). -/
def decodeWork (w : BitVec 32) : Except Reject Instr :=
  match (slice w 0 7).toNat with
  | 0 => if slice w 7 5 = 0#5 then .ok (.spawn (slice w 29 3) (slice w 17 5) (slice w 12 5)) else .error .reservedField
  | 1 => if slice w 17 5 = 0#5 ∧ slice w 7 5 = 0#5 then .ok (.taskq (slice w 29 3) (slice w 12 5)) else .error .reservedField
  | 2 => if slice w 7 15 = 0#15 then .ok (.taskend (slice w 29 3)) else .error .reservedField
  | 3 => if slice w 7 15 = 0#15 then .ok (.gdone (slice w 29 3)) else .error .reservedField
  | 4 => .ok (.mboxreg (slice w 29 3) (slice w 17 5) (slice w 12 5) (slice w 7 5))
  | _ => .error .functUnassigned

/-- MAJOR 0x7F: the funct in bits [6:0] chooses the instruction (02 R38). -/
def decodeSys (w : BitVec 32) : Except Reject Instr :=
  match (slice w 0 7).toNat with
  | 4 => .ok (.crr (slice w 29 3) (slice w 17 5) (slice w 7 10))
  | 5 => .ok (.crw (slice w 29 3) (slice w 17 5) (slice w 7 10))
  | 6 => .ok (.crset (slice w 29 3) (slice w 17 5) (slice w 7 10))
  | 7 => .ok (.crclr (slice w 29 3) (slice w 17 5) (slice w 7 10))
  | 8 => if slice w 17 5 = 0#5 then .ok (.tlbinv (slice w 29 3) (slice w 12 5) (slice w 7 5)) else .error .reservedField
  | 9 => if slice w 7 15 = 0#15 then .ok (.pause (slice w 29 3)) else .error .reservedField
  | 11 => if slice w 7 5 = 0#5 then .ok (.pgate (slice w 29 3) (slice w 17 5) (slice w 12 5)) else .error .reservedField
  | 12 => if slice w 7 5 = 0#5 then .ok (.ctxsave (slice w 29 3) (slice w 17 5) (slice w 12 5)) else .error .reservedField
  | 13 => if slice w 17 5 = 0#5 ∧ slice w 7 5 = 0#5 then .ok (.ctxload (slice w 29 3) (slice w 12 5)) else .error .reservedField
  | 14 => if slice w 7 5 = 0#5 then .ok (.errrd (slice w 29 3) (slice w 17 5) (slice w 12 5)) else .error .reservedField
  | 0 => if slice w 7 15 = 0#15 then .ok (.ecall) else .error .reservedField
  | 1 => if slice w 7 15 = 0#15 then .ok (.ebrk) else .error .reservedField
  | 2 => if slice w 7 15 = 0#15 then .ok (.eret) else .error .reservedField
  | 3 => if slice w 7 15 = 0#15 then .ok (.wfi) else .error .reservedField
  | 10 => if slice w 7 15 = 0#15 then .ok (.halt) else .error .reservedField
  | _ => .error .functUnassigned

/-- The words whose MAJOR lies in 0x00–0x0F (02 R38). -/
def decodeMajors0 (w : BitVec 32) : Except Reject Instr :=
  match (slice w 22 4).toNat with
  | 1 => decodeIntr w
  | 2 => .ok (.addi (slice w 29 3) (slice w 17 5) (slice w 12 5) (slice w 0 12))
  | 3 => .ok (.andi (slice w 29 3) (slice w 17 5) (slice w 12 5) (slice w 0 12))
  | 4 => .ok (.ori (slice w 29 3) (slice w 17 5) (slice w 12 5) (slice w 0 12))
  | 5 => .ok (.xori (slice w 29 3) (slice w 17 5) (slice w 12 5) (slice w 0 12))
  | 6 => .ok (.slti (slice w 29 3) (slice w 17 5) (slice w 12 5) (slice w 0 12))
  | 7 => .ok (.sltiu (slice w 29 3) (slice w 17 5) (slice w 12 5) (slice w 0 12))
  | 8 => decodeShifti w
  | 9 => .ok (.ldhi (slice w 29 3) (slice w 17 5) (slice w 0 17))
  | 10 => .ok (.addpc (slice w 29 3) (slice w 17 5) (slice w 0 17))
  | _ => .error .majorReserved

/-- The words whose MAJOR lies in 0x10–0x1F (02 R38). -/
def decodeMajors1 (w : BitVec 32) : Except Reject Instr :=
  match (slice w 22 4).toNat with
  | 0 => .ok (.beq (slice w 29 3) (slice w 17 5) (slice w 12 5) (slice w 0 12))
  | 1 => .ok (.bne (slice w 29 3) (slice w 17 5) (slice w 12 5) (slice w 0 12))
  | 2 => .ok (.blt (slice w 29 3) (slice w 17 5) (slice w 12 5) (slice w 0 12))
  | 3 => .ok (.bge (slice w 29 3) (slice w 17 5) (slice w 12 5) (slice w 0 12))
  | 4 => .ok (.bltu (slice w 29 3) (slice w 17 5) (slice w 12 5) (slice w 0 12))
  | 5 => .ok (.bgeu (slice w 29 3) (slice w 17 5) (slice w 12 5) (slice w 0 12))
  | 6 => .ok (.jal (slice w 29 3) (slice w 17 5) (slice w 0 17))
  | 7 => .ok (.jalr (slice w 29 3) (slice w 17 5) (slice w 12 5) (slice w 0 12))
  | 8 => if slice w 0 4 = 0#4 then .ok (.frame (slice w 29 3) (slice w 18 4) (slice w 10 8) (slice w 7 3) (slice w 6 1) (slice w 5 1) (slice w 4 1)) else .error .reservedField
  | 9 => if slice w 17 5 = 0#5 then .ok (.bqt (slice w 29 3) (slice w 0 17)) else .error .reservedField
  | 10 => if slice w 17 5 = 0#5 then .ok (.bqf (slice w 29 3) (slice w 0 17)) else .error .reservedField
  | 11 => if slice w 17 5 = 0#5 ∧ slice w 1 11 = 0#11 then .ok (.bqpush (slice w 29 3) (slice w 12 5) (slice w 0 1)) else .error .reservedField
  | 12 => if slice w 19 3 = 0#3 then .ok (.qld (slice w 29 3) (slice w 17 2) (slice w 12 5) (slice w 0 12)) else .error .reservedField
  | 13 => if slice w 19 3 = 0#3 then .ok (.qst (slice w 29 3) (slice w 17 2) (slice w 12 5) (slice w 0 12)) else .error .reservedField
  | 14 => decodeQctl w
  | _ => .error .majorReserved

/-- The words whose MAJOR lies in 0x20–0x2F (02 R38). -/
def decodeMajors2 (w : BitVec 32) : Except Reject Instr :=
  match (slice w 22 4).toNat with
  | 0 => .ok (.lb (slice w 29 3) (slice w 17 5) (slice w 12 5) (slice w 0 12))
  | 1 => .ok (.lh (slice w 29 3) (slice w 17 5) (slice w 12 5) (slice w 0 12))
  | 2 => .ok (.lw (slice w 29 3) (slice w 17 5) (slice w 12 5) (slice w 0 12))
  | 3 => .ok (.ld (slice w 29 3) (slice w 17 5) (slice w 12 5) (slice w 0 12))
  | 4 => .ok (.lbu (slice w 29 3) (slice w 17 5) (slice w 12 5) (slice w 0 12))
  | 5 => .ok (.lhu (slice w 29 3) (slice w 17 5) (slice w 12 5) (slice w 0 12))
  | 6 => .ok (.lwu (slice w 29 3) (slice w 17 5) (slice w 12 5) (slice w 0 12))
  | 7 => .ok (.sb (slice w 29 3) (slice w 17 5) (slice w 12 5) (slice w 0 12))
  | 8 => .ok (.sh (slice w 29 3) (slice w 17 5) (slice w 12 5) (slice w 0 12))
  | 9 => .ok (.sw (slice w 29 3) (slice w 17 5) (slice w 12 5) (slice w 0 12))
  | 10 => .ok (.sd (slice w 29 3) (slice w 17 5) (slice w 12 5) (slice w 0 12))
  | 11 => .ok (.ldw (slice w 29 3) (slice w 17 5) (slice w 12 5) (slice w 0 12))
  | 12 => .ok (.ldwe (slice w 29 3) (slice w 17 5) (slice w 12 5) (slice w 0 12))
  | 13 => .ok (.stw (slice w 29 3) (slice w 17 5) (slice w 12 5) (slice w 0 12))
  | 14 => .ok (.stf (slice w 29 3) (slice w 17 5) (slice w 12 5) (slice w 0 12))
  | 15 => .ok (.ldf (slice w 29 3) (slice w 17 5) (slice w 12 5) (slice w 0 12))
  | _ => .error .majorReserved

/-- The words whose MAJOR lies in 0x30–0x3F (02 R38). -/
def decodeMajors3 (w : BitVec 32) : Except Reject Instr :=
  match (slice w 22 4).toNat with
  | 0 => .ok (.vld (slice w 29 3) (slice w 17 5) (slice w 12 5) (slice w 9 3) (slice w 0 9))
  | 1 => .ok (.vst (slice w 29 3) (slice w 17 5) (slice w 12 5) (slice w 9 3) (slice w 0 9))
  | 2 => if slice w 2 2 = 0#2 then .ok (.vlds (slice w 29 3) (slice w 17 5) (slice w 12 5) (slice w 7 5) (slice w 4 3) (slice w 0 2)) else .error .reservedField
  | 3 => if slice w 2 2 = 0#2 then .ok (.vsts (slice w 29 3) (slice w 17 5) (slice w 12 5) (slice w 7 5) (slice w 4 3) (slice w 0 2)) else .error .reservedField
  | 4 => if slice w 2 2 = 0#2 then .ok (.vgath (slice w 29 3) (slice w 17 5) (slice w 12 5) (slice w 7 5) (slice w 4 3) (slice w 0 2)) else .error .reservedField
  | 5 => if slice w 2 2 = 0#2 then .ok (.vscat (slice w 29 3) (slice w 17 5) (slice w 12 5) (slice w 7 5) (slice w 4 3) (slice w 0 2)) else .error .reservedField
  | 6 => if slice w 20 2 = 0#2 ∧ slice w 0 7 = 0#7 then .ok (.tld (slice w 29 3) (slice w 17 3) (slice w 12 5) (slice w 7 5)) else .error .reservedField
  | 7 => if slice w 20 2 = 0#2 ∧ slice w 0 7 = 0#7 then .ok (.tst (slice w 29 3) (slice w 17 3) (slice w 12 5) (slice w 7 5)) else .error .reservedField
  | 8 => decodeCache w
  | 9 => decodeFenceop w
  | 10 => decodeAmo w
  | 11 => if slice w 3 4 = 0#4 then .ok (.amocas (slice w 29 3) (slice w 17 5) (slice w 12 5) (slice w 7 5) (slice w 2 1) (slice w 0 2)) else .error .reservedField
  | 12 => .ok (.etcall (slice w 29 3) (slice w 17 5) (slice w 12 5) (slice w 7 5) (slice w 6 1) (slice w 0 6))
  | 13 => decodeEtctl w
  | _ => .error .majorReserved

/-- The words whose MAJOR lies in 0x40–0x4F (02 R38). -/
def decodeMajors4 (w : BitVec 32) : Except Reject Instr :=
  match (slice w 22 4).toNat with
  | 0 => match ElemType.ofCode (slice w 0 4) with | none => .error .typeReserved | some t => .ok (.vadd (slice w 29 3) (slice w 17 5) (slice w 12 5) (slice w 7 5) (slice w 4 3) t)
  | 1 => match ElemType.ofCode (slice w 0 4) with | none => .error .typeReserved | some t => .ok (.vsub (slice w 29 3) (slice w 17 5) (slice w 12 5) (slice w 7 5) (slice w 4 3) t)
  | 2 => match ElemType.ofCode (slice w 0 4) with | none => .error .typeReserved | some t => .ok (.vmul (slice w 29 3) (slice w 17 5) (slice w 12 5) (slice w 7 5) (slice w 4 3) t)
  | 3 => match ElemType.ofCode (slice w 0 4) with | none => .error .typeReserved | some t => .ok (.vmulh (slice w 29 3) (slice w 17 5) (slice w 12 5) (slice w 7 5) (slice w 4 3) t)
  | 4 => match ElemType.ofCode (slice w 0 4) with | none => .error .typeReserved | some t => .ok (.vfma (slice w 29 3) (slice w 17 5) (slice w 12 5) (slice w 7 5) (slice w 4 3) t)
  | 5 => match ElemType.ofCode (slice w 0 4) with | none => .error .typeReserved | some t => .ok (.vfms (slice w 29 3) (slice w 17 5) (slice w 12 5) (slice w 7 5) (slice w 4 3) t)
  | 6 => match ElemType.ofCode (slice w 0 4) with | none => .error .typeReserved | some t => .ok (.vfnma (slice w 29 3) (slice w 17 5) (slice w 12 5) (slice w 7 5) (slice w 4 3) t)
  | 7 => match ElemType.ofCode (slice w 0 4) with | none => .error .typeReserved | some t => .ok (.vdiv (slice w 29 3) (slice w 17 5) (slice w 12 5) (slice w 7 5) (slice w 4 3) t)
  | 8 => if slice w 7 5 = 0#5 then match ElemType.ofCode (slice w 0 4) with | none => .error .typeReserved | some t => .ok (.vsqrt (slice w 29 3) (slice w 17 5) (slice w 12 5) (slice w 4 3) t) else .error .reservedField
  | 9 => match ElemType.ofCode (slice w 0 4) with | none => .error .typeReserved | some t => .ok (.vmin (slice w 29 3) (slice w 17 5) (slice w 12 5) (slice w 7 5) (slice w 4 3) t)
  | 10 => match ElemType.ofCode (slice w 0 4) with | none => .error .typeReserved | some t => .ok (.vmax (slice w 29 3) (slice w 17 5) (slice w 12 5) (slice w 7 5) (slice w 4 3) t)
  | 11 => if slice w 7 5 = 0#5 then match ElemType.ofCode (slice w 0 4) with | none => .error .typeReserved | some t => .ok (.vabs (slice w 29 3) (slice w 17 5) (slice w 12 5) (slice w 4 3) t) else .error .reservedField
  | 12 => if slice w 7 5 = 0#5 then match ElemType.ofCode (slice w 0 4) with | none => .error .typeReserved | some t => .ok (.vneg (slice w 29 3) (slice w 17 5) (slice w 12 5) (slice w 4 3) t) else .error .reservedField
  | 13 => match ElemType.ofCode (slice w 0 4) with | none => .error .typeReserved | some t => .ok (.vand (slice w 29 3) (slice w 17 5) (slice w 12 5) (slice w 7 5) (slice w 4 3) t)
  | 14 => match ElemType.ofCode (slice w 0 4) with | none => .error .typeReserved | some t => .ok (.vor (slice w 29 3) (slice w 17 5) (slice w 12 5) (slice w 7 5) (slice w 4 3) t)
  | 15 => match ElemType.ofCode (slice w 0 4) with | none => .error .typeReserved | some t => .ok (.vxor (slice w 29 3) (slice w 17 5) (slice w 12 5) (slice w 7 5) (slice w 4 3) t)
  | _ => .error .majorReserved

/-- The words whose MAJOR lies in 0x50–0x5F (02 R38). -/
def decodeMajors5 (w : BitVec 32) : Except Reject Instr :=
  match (slice w 22 4).toNat with
  | 0 => match ElemType.ofCode (slice w 0 4) with | none => .error .typeReserved | some t => .ok (.vsll (slice w 29 3) (slice w 17 5) (slice w 12 5) (slice w 7 5) (slice w 4 3) t)
  | 1 => match ElemType.ofCode (slice w 0 4) with | none => .error .typeReserved | some t => .ok (.vsrl (slice w 29 3) (slice w 17 5) (slice w 12 5) (slice w 7 5) (slice w 4 3) t)
  | 2 => match ElemType.ofCode (slice w 0 4) with | none => .error .typeReserved | some t => .ok (.vsra (slice w 29 3) (slice w 17 5) (slice w 12 5) (slice w 7 5) (slice w 4 3) t)
  | 3 => match ElemType.ofCode (slice w 0 4) with | none => .error .typeReserved | some t => .ok (.vsadd (slice w 29 3) (slice w 17 5) (slice w 12 5) (slice w 7 5) (slice w 4 3) t)
  | 4 => match ElemType.ofCode (slice w 0 4) with | none => .error .typeReserved | some t => .ok (.vssub (slice w 29 3) (slice w 17 5) (slice w 12 5) (slice w 7 5) (slice w 4 3) t)
  | 5 => if slice w 20 2 = 0#2 then match ElemType.ofCode (slice w 0 4) with | none => .error .typeReserved | some t => .ok (.vcmpeq (slice w 29 3) (slice w 17 3) (slice w 12 5) (slice w 7 5) (slice w 4 3) t) else .error .reservedField
  | 6 => if slice w 20 2 = 0#2 then match ElemType.ofCode (slice w 0 4) with | none => .error .typeReserved | some t => .ok (.vcmplt (slice w 29 3) (slice w 17 3) (slice w 12 5) (slice w 7 5) (slice w 4 3) t) else .error .reservedField
  | 7 => if slice w 20 2 = 0#2 then match ElemType.ofCode (slice w 0 4) with | none => .error .typeReserved | some t => .ok (.vcmple (slice w 29 3) (slice w 17 3) (slice w 12 5) (slice w 7 5) (slice w 4 3) t) else .error .reservedField
  | 8 => match ElemType.ofCode (slice w 0 4) with | none => .error .typeReserved | some t => .ok (.vsel (slice w 29 3) (slice w 17 5) (slice w 12 5) (slice w 7 5) (slice w 4 3) t)
  | 9 => if slice w 7 5 = 0#5 then match ElemType.ofCode (slice w 0 4) with | none => .error .typeReserved | some t => .ok (.vmv (slice w 29 3) (slice w 17 5) (slice w 12 5) (slice w 4 3) t) else .error .reservedField
  | 10 => if slice w 7 5 = 0#5 then match ElemType.ofCode (slice w 0 4) with | none => .error .typeReserved | some t => .ok (.vbcast (slice w 29 3) (slice w 17 5) (slice w 12 5) (slice w 4 3) t) else .error .reservedField
  | 11 => if slice w 4 3 = 0#3 then match ElemType.ofCode (slice w 0 4) with | none => .error .typeReserved | some t => .ok (.vmvx (slice w 29 3) (slice w 17 5) (slice w 12 5) (slice w 7 5) t) else .error .reservedField
  | 12 => match ElemType.ofCode (slice w 0 4) with | none => .error .typeReserved | some t => .ok (.vslideup (slice w 29 3) (slice w 17 5) (slice w 12 5) (slice w 7 5) (slice w 4 3) t)
  | 13 => match ElemType.ofCode (slice w 0 4) with | none => .error .typeReserved | some t => .ok (.vslidedn (slice w 29 3) (slice w 17 5) (slice w 12 5) (slice w 7 5) (slice w 4 3) t)
  | 14 => match ElemType.ofCode (slice w 0 4) with | none => .error .typeReserved | some t => .ok (.vperm (slice w 29 3) (slice w 17 5) (slice w 12 5) (slice w 7 5) (slice w 4 3) t)
  | 15 => if slice w 7 5 = 0#5 then match ElemType.ofCode (slice w 0 4) with | none => .error .typeReserved | some t => .ok (.vcompress (slice w 29 3) (slice w 17 5) (slice w 12 5) (slice w 4 3) t) else .error .reservedField
  | _ => .error .majorReserved

/-- The words whose MAJOR lies in 0x60–0x6F (02 R38). -/
def decodeMajors6 (w : BitVec 32) : Except Reject Instr :=
  match (slice w 22 4).toNat with
  | 0 => if slice w 7 5 = 0#5 then match ElemType.ofCode (slice w 0 4) with | none => .error .typeReserved | some t => .ok (.vexpand (slice w 29 3) (slice w 17 5) (slice w 12 5) (slice w 4 3) t) else .error .reservedField
  | 1 => match ElemType.ofCode (slice w 0 4) with | none => .error .typeReserved | some t => .ok (.vredsum (slice w 29 3) (slice w 17 5) (slice w 12 5) (slice w 7 5) (slice w 4 3) t)
  | 2 => match ElemType.ofCode (slice w 0 4) with | none => .error .typeReserved | some t => .ok (.vredmax (slice w 29 3) (slice w 17 5) (slice w 12 5) (slice w 7 5) (slice w 4 3) t)
  | 3 => match ElemType.ofCode (slice w 0 4) with | none => .error .typeReserved | some t => .ok (.vredmin (slice w 29 3) (slice w 17 5) (slice w 12 5) (slice w 7 5) (slice w 4 3) t)
  | 4 => if slice w 10 2 = 0#2 then match ElemType.ofCode (slice w 0 4) with | none => .error .typeReserved | some t => .ok (.vredq (slice w 29 3) (slice w 17 5) (slice w 12 5) (slice w 7 3) (slice w 4 3) t) else .error .reservedField
  | 5 => match ElemType.ofCode (slice w 0 4) with | none => .error .typeReserved | some t => .ok (.vdot4 (slice w 29 3) (slice w 17 5) (slice w 12 5) (slice w 7 5) (slice w 4 3) t)
  | 6 => if slice w 7 5 = 0#5 then match ElemType.ofCode (slice w 0 4) with | none => .error .typeReserved | some t => .ok (.vexp2 (slice w 29 3) (slice w 17 5) (slice w 12 5) (slice w 4 3) t) else .error .reservedField
  | 7 => if slice w 7 5 = 0#5 then match ElemType.ofCode (slice w 0 4) with | none => .error .typeReserved | some t => .ok (.vlog2 (slice w 29 3) (slice w 17 5) (slice w 12 5) (slice w 4 3) t) else .error .reservedField
  | 8 => if slice w 7 5 = 0#5 then match ElemType.ofCode (slice w 0 4) with | none => .error .typeReserved | some t => .ok (.vrcp (slice w 29 3) (slice w 17 5) (slice w 12 5) (slice w 4 3) t) else .error .reservedField
  | 9 => if slice w 7 5 = 0#5 then match ElemType.ofCode (slice w 0 4) with | none => .error .typeReserved | some t => .ok (.vrsq (slice w 29 3) (slice w 17 5) (slice w 12 5) (slice w 4 3) t) else .error .reservedField
  | 10 => decodeMop w
  | 11 => if slice w 7 1 = 0#1 then match ElemType.ofCode (slice w 8 4) with | none => .error .typeReserved | some e => match ElemType.ofCode (slice w 0 4) with | none => .error .typeReserved | some t => .ok (.vcvt (slice w 29 3) (slice w 17 5) (slice w 12 5) e (slice w 4 3) t) else .error .reservedField
  | 12 => if slice w 7 1 = 0#1 then match ElemType.ofCode (slice w 8 4) with | none => .error .typeReserved | some e => match ElemType.ofCode (slice w 0 4) with | none => .error .typeReserved | some t => .ok (.vcvtn (slice w 29 3) (slice w 17 5) (slice w 12 5) e (slice w 4 3) t) else .error .reservedField
  | 13 => decodeVcvtw w
  | 14 => decodeVfmt w
  | _ => .error .majorReserved

/-- The words whose MAJOR lies in 0x70–0x7F (02 R38). -/
def decodeMajors7 (w : BitVec 32) : Except Reject Instr :=
  match (slice w 22 4).toNat with
  | 0 => if slice w 10 2 = 0#2 ∧ slice w 0 7 = 0#7 then .ok (.setshape (slice w 29 3) (slice w 17 5) (slice w 12 5) (slice w 7 3)) else .error .reservedField
  | 1 => if slice w 17 5 = 0#5 ∧ slice w 0 12 = 0#12 then .ok (.mgang (slice w 29 3) (slice w 12 5)) else .error .reservedField
  | 2 => if slice w 19 3 = 0#3 ∧ slice w 15 2 = 0#2 ∧ slice w 10 2 = 0#2 ∧ slice w 0 7 = 0#7 then .ok (.mma (slice w 29 3) (slice w 17 2) (slice w 12 3) (slice w 7 3)) else .error .reservedField
  | 3 => if slice w 19 3 = 0#3 ∧ slice w 15 2 = 0#2 ∧ slice w 10 2 = 0#2 ∧ slice w 5 2 = 0#2 then .ok (.mmag (slice w 29 3) (slice w 17 2) (slice w 12 3) (slice w 7 3) (slice w 0 5)) else .error .reservedField
  | 4 => if slice w 19 3 = 0#3 ∧ slice w 15 2 = 0#2 ∧ slice w 7 5 = 0#5 ∧ slice w 0 6 = 0#6 then .ok (.mdrain (slice w 29 3) (slice w 17 2) (slice w 12 3) (slice w 6 1)) else .error .reservedField
  | 5 => if slice w 19 3 = 0#3 ∧ slice w 0 17 = 0#17 then .ok (.mzero (slice w 29 3) (slice w 17 2)) else .error .reservedField
  | 6 => if slice w 14 3 = 0#3 ∧ slice w 0 6 = 0#6 then .ok (.mpsum (slice w 29 3) (slice w 17 5) (slice w 12 2) (slice w 7 5) (slice w 6 1)) else .error .reservedField
  | 7 => decodeMctl w
  | 8 => decodeEng w
  | 9 => decodeBurin w
  | 10 => if slice w 17 5 = 0#5 ∧ slice w 10 1 = 0#1 then .ok (.sxmit (slice w 29 3) (slice w 12 5) (slice w 11 1) (slice w 0 10)) else .error .reservedField
  | 11 => if slice w 17 5 = 0#5 ∧ slice w 10 1 = 0#1 then .ok (.ssel (slice w 29 3) (slice w 12 5) (slice w 11 1) (slice w 0 10)) else .error .reservedField
  | 12 => decodeBsp w
  | 13 => decodeMsg w
  | 14 => decodeWork w
  | 15 => decodeSys w
  | _ => .error .majorReserved

/-- The instruction whose fields a word holds, before the limits of the entries are checked. -/
def decodeFields (w : BitVec 32) : Except Reject Instr :=
  match (slice w 26 3).toNat with
  | 0 => if slice w 22 7 = 0#7 then .error .majorIllegal else decodeMajors0 w
  | 1 => decodeMajors1 w
  | 2 => decodeMajors2 w
  | 3 => decodeMajors3 w
  | 4 => decodeMajors4 w
  | 5 => decodeMajors5 w
  | 6 => decodeMajors6 w
  | _ => decodeMajors7 w

/-- The instruction that a word is, or why it is none (02 R38, R39). -/
def decodeWord (w : BitVec 32) : Except Reject Instr :=
  match decodeFields w with
  | .error r => .error r
  | .ok i => if i.wellFormed then .ok i else .error .fieldLimit

/-- The word of an instruction, written field by field from the formats (02 R33, R35)
and the opcode map (02 R38), most significant first.
A step that has no word answers the all-zero word, which is no instruction. -/
def encode : Instr → BitVec 32
  | .add st d a b => st ++ 0x01#7 ++ d ++ a ++ b ++ 0#7
  | .sub st d a b => st ++ 0x01#7 ++ d ++ a ++ b ++ 1#7
  | .and st d a b => st ++ 0x01#7 ++ d ++ a ++ b ++ 2#7
  | .or st d a b => st ++ 0x01#7 ++ d ++ a ++ b ++ 3#7
  | .xor st d a b => st ++ 0x01#7 ++ d ++ a ++ b ++ 4#7
  | .andn st d a b => st ++ 0x01#7 ++ d ++ a ++ b ++ 5#7
  | .orn st d a b => st ++ 0x01#7 ++ d ++ a ++ b ++ 6#7
  | .sll st d a b => st ++ 0x01#7 ++ d ++ a ++ b ++ 7#7
  | .srl st d a b => st ++ 0x01#7 ++ d ++ a ++ b ++ 8#7
  | .sra st d a b => st ++ 0x01#7 ++ d ++ a ++ b ++ 9#7
  | .rol st d a b => st ++ 0x01#7 ++ d ++ a ++ b ++ 10#7
  | .ror st d a b => st ++ 0x01#7 ++ d ++ a ++ b ++ 11#7
  | .slt st d a b => st ++ 0x01#7 ++ d ++ a ++ b ++ 12#7
  | .sltu st d a b => st ++ 0x01#7 ++ d ++ a ++ b ++ 13#7
  | .min st d a b => st ++ 0x01#7 ++ d ++ a ++ b ++ 14#7
  | .max st d a b => st ++ 0x01#7 ++ d ++ a ++ b ++ 15#7
  | .minu st d a b => st ++ 0x01#7 ++ d ++ a ++ b ++ 16#7
  | .maxu st d a b => st ++ 0x01#7 ++ d ++ a ++ b ++ 17#7
  | .mul st d a b => st ++ 0x01#7 ++ d ++ a ++ b ++ 18#7
  | .mulh st d a b => st ++ 0x01#7 ++ d ++ a ++ b ++ 19#7
  | .mulhu st d a b => st ++ 0x01#7 ++ d ++ a ++ b ++ 20#7
  | .mulhsu st d a b => st ++ 0x01#7 ++ d ++ a ++ b ++ 21#7
  | .div st d a b => st ++ 0x01#7 ++ d ++ a ++ b ++ 22#7
  | .divu st d a b => st ++ 0x01#7 ++ d ++ a ++ b ++ 23#7
  | .rem st d a b => st ++ 0x01#7 ++ d ++ a ++ b ++ 24#7
  | .remu st d a b => st ++ 0x01#7 ++ d ++ a ++ b ++ 25#7
  | .clz st d a => st ++ 0x01#7 ++ d ++ a ++ 26#12
  | .ctz st d a => st ++ 0x01#7 ++ d ++ a ++ 27#12
  | .cpop st d a => st ++ 0x01#7 ++ d ++ a ++ 28#12
  | .sextb st d a => st ++ 0x01#7 ++ d ++ a ++ 29#12
  | .sexth st d a => st ++ 0x01#7 ++ d ++ a ++ 30#12
  | .sextw st d a => st ++ 0x01#7 ++ d ++ a ++ 31#12
  | .zextw st d a => st ++ 0x01#7 ++ d ++ a ++ 32#12
  | .shadd1 st d a b => st ++ 0x01#7 ++ d ++ a ++ b ++ 33#7
  | .shadd2 st d a b => st ++ 0x01#7 ++ d ++ a ++ b ++ 34#7
  | .shadd3 st d a b => st ++ 0x01#7 ++ d ++ a ++ b ++ 35#7
  | .addi st d a i => st ++ 0x02#7 ++ d ++ a ++ i
  | .andi st d a i => st ++ 0x03#7 ++ d ++ a ++ i
  | .ori st d a i => st ++ 0x04#7 ++ d ++ a ++ i
  | .xori st d a i => st ++ 0x05#7 ++ d ++ a ++ i
  | .slti st d a i => st ++ 0x06#7 ++ d ++ a ++ i
  | .sltiu st d a i => st ++ 0x07#7 ++ d ++ a ++ i
  | .slli st d a n => st ++ 0x08#7 ++ d ++ a ++ 0#6 ++ n
  | .srli st d a n => st ++ 0x08#7 ++ d ++ a ++ 16#6 ++ n
  | .srai st d a n => st ++ 0x08#7 ++ d ++ a ++ 32#6 ++ n
  | .rori st d a n => st ++ 0x08#7 ++ d ++ a ++ 48#6 ++ n
  | .ldhi st d i => st ++ 0x09#7 ++ d ++ i
  | .addpc st d i => st ++ 0x0A#7 ++ d ++ i
  | .beq st a b o => st ++ 0x10#7 ++ a ++ b ++ o
  | .bne st a b o => st ++ 0x11#7 ++ a ++ b ++ o
  | .blt st a b o => st ++ 0x12#7 ++ a ++ b ++ o
  | .bge st a b o => st ++ 0x13#7 ++ a ++ b ++ o
  | .bltu st a b o => st ++ 0x14#7 ++ a ++ b ++ o
  | .bgeu st a b o => st ++ 0x15#7 ++ a ++ b ++ o
  | .jal st d o => st ++ 0x16#7 ++ d ++ o
  | .jalr st d a i => st ++ 0x17#7 ++ d ++ a ++ i
  | .frame st n c t x y z => st ++ 0x18#7 ++ n ++ c ++ t ++ x ++ y ++ z ++ 0#4
  | .bqt st o => st ++ 0x19#7 ++ 0#5 ++ o
  | .bqf st o => st ++ 0x1A#7 ++ 0#5 ++ o
  | .bqpush st a t => st ++ 0x1B#7 ++ 0#5 ++ a ++ 0#11 ++ t
  | .qld st n a i => st ++ 0x1C#7 ++ 0#3 ++ n ++ a ++ i
  | .qst st n a i => st ++ 0x1D#7 ++ 0#3 ++ n ++ a ++ i
  | .qbind st a => st ++ 0x1E#7 ++ 0#5 ++ a ++ 0#12
  | .qunbind st a => st ++ 0x1E#7 ++ 0#5 ++ a ++ 1#12
  | .qstart st u a b => st ++ 0x1E#7 ++ 0#4 ++ u ++ a ++ b ++ 2#7
  | .qstop st u => st ++ 0x1E#7 ++ 0#4 ++ u ++ 3#17
  | .qwait st u => st ++ 0x1E#7 ++ 0#4 ++ u ++ 4#17
  | .lb st d a i => st ++ 0x20#7 ++ d ++ a ++ i
  | .lh st d a i => st ++ 0x21#7 ++ d ++ a ++ i
  | .lw st d a i => st ++ 0x22#7 ++ d ++ a ++ i
  | .ld st d a i => st ++ 0x23#7 ++ d ++ a ++ i
  | .lbu st d a i => st ++ 0x24#7 ++ d ++ a ++ i
  | .lhu st d a i => st ++ 0x25#7 ++ d ++ a ++ i
  | .lwu st d a i => st ++ 0x26#7 ++ d ++ a ++ i
  | .sb st b a i => st ++ 0x27#7 ++ b ++ a ++ i
  | .sh st b a i => st ++ 0x28#7 ++ b ++ a ++ i
  | .sw st b a i => st ++ 0x29#7 ++ b ++ a ++ i
  | .sd st b a i => st ++ 0x2A#7 ++ b ++ a ++ i
  | .ldw st d a i => st ++ 0x2B#7 ++ d ++ a ++ i
  | .ldwe st d a i => st ++ 0x2C#7 ++ d ++ a ++ i
  | .stw st b a i => st ++ 0x2D#7 ++ b ++ a ++ i
  | .stf st b a i => st ++ 0x2E#7 ++ b ++ a ++ i
  | .ldf st d a i => st ++ 0x2F#7 ++ d ++ a ++ i
  | .vld st d a m o => st ++ 0x30#7 ++ d ++ a ++ m ++ o
  | .vst st d a m o => st ++ 0x31#7 ++ d ++ a ++ m ++ o
  | .vlds st d a b m w => st ++ 0x32#7 ++ d ++ a ++ b ++ m ++ 0#2 ++ w
  | .vsts st d a b m w => st ++ 0x33#7 ++ d ++ a ++ b ++ m ++ 0#2 ++ w
  | .vgath st d a b m w => st ++ 0x34#7 ++ d ++ a ++ b ++ m ++ 0#2 ++ w
  | .vscat st d a b m w => st ++ 0x35#7 ++ d ++ a ++ b ++ m ++ 0#2 ++ w
  | .tld st t a b => st ++ 0x36#7 ++ 0#2 ++ t ++ a ++ b ++ 0#7
  | .tst st t a b => st ++ 0x37#7 ++ 0#2 ++ t ++ a ++ b ++ 0#7
  | .cpref st a => st ++ 0x38#7 ++ 0#5 ++ a ++ 0#12
  | .cclean st a => st ++ 0x38#7 ++ 0#5 ++ a ++ 1#12
  | .cflush st a => st ++ 0x38#7 ++ 0#5 ++ a ++ 2#12
  | .cinv st a => st ++ 0x38#7 ++ 0#5 ++ a ++ 3#12
  | .feget st d a => st ++ 0x38#7 ++ d ++ a ++ 4#12
  | .feset st a b => st ++ 0x38#7 ++ 0#5 ++ a ++ b ++ 5#7
  | .fence st q r c u => st ++ 0x39#7 ++ q ++ r ++ c ++ 0#4 ++ u ++ 0#12
  | .fencem st a b => st ++ 0x39#7 ++ 0#5 ++ a ++ b ++ 2#7
  | .amoadd st d a b w o => st ++ 0x3A#7 ++ d ++ a ++ b ++ 0#4 ++ w ++ o
  | .amoand st d a b w o => st ++ 0x3A#7 ++ d ++ a ++ b ++ 1#4 ++ w ++ o
  | .amoor st d a b w o => st ++ 0x3A#7 ++ d ++ a ++ b ++ 2#4 ++ w ++ o
  | .amoxor st d a b w o => st ++ 0x3A#7 ++ d ++ a ++ b ++ 3#4 ++ w ++ o
  | .amomin st d a b w o => st ++ 0x3A#7 ++ d ++ a ++ b ++ 4#4 ++ w ++ o
  | .amomax st d a b w o => st ++ 0x3A#7 ++ d ++ a ++ b ++ 5#4 ++ w ++ o
  | .amominu st d a b w o => st ++ 0x3A#7 ++ d ++ a ++ b ++ 6#4 ++ w ++ o
  | .amomaxu st d a b w o => st ++ 0x3A#7 ++ d ++ a ++ b ++ 7#4 ++ w ++ o
  | .amoswap st d a b w o => st ++ 0x3A#7 ++ d ++ a ++ b ++ 8#4 ++ w ++ o
  | .amofadd st d a b o => st ++ 0x3A#7 ++ d ++ a ++ b ++ 18#5 ++ o
  | .amofmax st d a b o => st ++ 0x3A#7 ++ d ++ a ++ b ++ 20#5 ++ o
  | .amoincs st d a b w o => st ++ 0x3A#7 ++ d ++ a ++ b ++ 11#4 ++ w ++ o
  | .amocas st d a b w o => st ++ 0x3B#7 ++ d ++ a ++ b ++ 0#4 ++ w ++ o
  | .etcall st d a b o i => st ++ 0x3C#7 ++ d ++ a ++ b ++ o ++ i
  | .etinst st d a b => st ++ 0x3D#7 ++ d ++ a ++ b ++ 0#7
  | .etdrop st b => st ++ 0x3D#7 ++ 0#10 ++ b ++ 1#7
  | .etflush st => st ++ 0x3D#7 ++ 2#22
  | .etquery st d b => st ++ 0x3D#7 ++ d ++ 0#5 ++ b ++ 3#7
  | .vadd st d a b m t => st ++ 0x40#7 ++ d ++ a ++ b ++ m ++ t.code
  | .vsub st d a b m t => st ++ 0x41#7 ++ d ++ a ++ b ++ m ++ t.code
  | .vmul st d a b m t => st ++ 0x42#7 ++ d ++ a ++ b ++ m ++ t.code
  | .vmulh st d a b m t => st ++ 0x43#7 ++ d ++ a ++ b ++ m ++ t.code
  | .vfma st d a b m t => st ++ 0x44#7 ++ d ++ a ++ b ++ m ++ t.code
  | .vfms st d a b m t => st ++ 0x45#7 ++ d ++ a ++ b ++ m ++ t.code
  | .vfnma st d a b m t => st ++ 0x46#7 ++ d ++ a ++ b ++ m ++ t.code
  | .vdiv st d a b m t => st ++ 0x47#7 ++ d ++ a ++ b ++ m ++ t.code
  | .vsqrt st d a m t => st ++ 0x48#7 ++ d ++ a ++ 0#5 ++ m ++ t.code
  | .vmin st d a b m t => st ++ 0x49#7 ++ d ++ a ++ b ++ m ++ t.code
  | .vmax st d a b m t => st ++ 0x4A#7 ++ d ++ a ++ b ++ m ++ t.code
  | .vabs st d a m t => st ++ 0x4B#7 ++ d ++ a ++ 0#5 ++ m ++ t.code
  | .vneg st d a m t => st ++ 0x4C#7 ++ d ++ a ++ 0#5 ++ m ++ t.code
  | .vand st d a b m t => st ++ 0x4D#7 ++ d ++ a ++ b ++ m ++ t.code
  | .vor st d a b m t => st ++ 0x4E#7 ++ d ++ a ++ b ++ m ++ t.code
  | .vxor st d a b m t => st ++ 0x4F#7 ++ d ++ a ++ b ++ m ++ t.code
  | .vsll st d a b m t => st ++ 0x50#7 ++ d ++ a ++ b ++ m ++ t.code
  | .vsrl st d a b m t => st ++ 0x51#7 ++ d ++ a ++ b ++ m ++ t.code
  | .vsra st d a b m t => st ++ 0x52#7 ++ d ++ a ++ b ++ m ++ t.code
  | .vsadd st d a b m t => st ++ 0x53#7 ++ d ++ a ++ b ++ m ++ t.code
  | .vssub st d a b m t => st ++ 0x54#7 ++ d ++ a ++ b ++ m ++ t.code
  | .vcmpeq st d a b m t => st ++ 0x55#7 ++ 0#2 ++ d ++ a ++ b ++ m ++ t.code
  | .vcmplt st d a b m t => st ++ 0x56#7 ++ 0#2 ++ d ++ a ++ b ++ m ++ t.code
  | .vcmple st d a b m t => st ++ 0x57#7 ++ 0#2 ++ d ++ a ++ b ++ m ++ t.code
  | .vsel st d a b m t => st ++ 0x58#7 ++ d ++ a ++ b ++ m ++ t.code
  | .vmv st d a m t => st ++ 0x59#7 ++ d ++ a ++ 0#5 ++ m ++ t.code
  | .vbcast st d a m t => st ++ 0x5A#7 ++ d ++ a ++ 0#5 ++ m ++ t.code
  | .vmvx st d a b t => st ++ 0x5B#7 ++ d ++ a ++ b ++ 0#3 ++ t.code
  | .vslideup st d a b m t => st ++ 0x5C#7 ++ d ++ a ++ b ++ m ++ t.code
  | .vslidedn st d a b m t => st ++ 0x5D#7 ++ d ++ a ++ b ++ m ++ t.code
  | .vperm st d a b m t => st ++ 0x5E#7 ++ d ++ a ++ b ++ m ++ t.code
  | .vcompress st d a m t => st ++ 0x5F#7 ++ d ++ a ++ 0#5 ++ m ++ t.code
  | .vexpand st d a m t => st ++ 0x60#7 ++ d ++ a ++ 0#5 ++ m ++ t.code
  | .vredsum st d a b m t => st ++ 0x61#7 ++ d ++ a ++ b ++ m ++ t.code
  | .vredmax st d a b m t => st ++ 0x62#7 ++ d ++ a ++ b ++ m ++ t.code
  | .vredmin st d a b m t => st ++ 0x63#7 ++ d ++ a ++ b ++ m ++ t.code
  | .vredq st d a c m t => st ++ 0x64#7 ++ d ++ a ++ 0#2 ++ c ++ m ++ t.code
  | .vdot4 st d a b m t => st ++ 0x65#7 ++ d ++ a ++ b ++ m ++ t.code
  | .vexp2 st d a m t => st ++ 0x66#7 ++ d ++ a ++ 0#5 ++ m ++ t.code
  | .vlog2 st d a m t => st ++ 0x67#7 ++ d ++ a ++ 0#5 ++ m ++ t.code
  | .vrcp st d a m t => st ++ 0x68#7 ++ d ++ a ++ 0#5 ++ m ++ t.code
  | .vrsq st d a m t => st ++ 0x69#7 ++ d ++ a ++ 0#5 ++ m ++ t.code
  | .mand st d a b => st ++ 0x6A#7 ++ 0#2 ++ d ++ 0#2 ++ a ++ 0#2 ++ b ++ 0#7
  | .mor st d a b => st ++ 0x6A#7 ++ 0#2 ++ d ++ 0#2 ++ a ++ 0#2 ++ b ++ 1#7
  | .mxor st d a b => st ++ 0x6A#7 ++ 0#2 ++ d ++ 0#2 ++ a ++ 0#2 ++ b ++ 2#7
  | .mnot st d a => st ++ 0x6A#7 ++ 0#2 ++ d ++ 0#2 ++ a ++ 3#12
  | .mcnt st d a => st ++ 0x6A#7 ++ d ++ 0#2 ++ a ++ 4#12
  | .mfirst st d a => st ++ 0x6A#7 ++ d ++ 0#2 ++ a ++ 5#12
  | .mset st d a => st ++ 0x6A#7 ++ 0#2 ++ d ++ a ++ 6#12
  | .mget st d a => st ++ 0x6A#7 ++ d ++ 0#2 ++ a ++ 7#12
  | .vcvt st d a e m t => st ++ 0x6B#7 ++ d ++ a ++ e.code ++ 0#1 ++ m ++ t.code
  | .vcvtn st d a e m t => st ++ 0x6C#7 ++ d ++ a ++ e.code ++ 0#1 ++ m ++ t.code
  | .vcvtwl st d a t m => st ++ 0x6D#7 ++ d ++ a ++ t.code ++ 0#1 ++ m ++ 0#4
  | .vcvtwh st d a t m => st ++ 0x6D#7 ++ d ++ a ++ t.code ++ 0#1 ++ m ++ 1#4
  | .vplane st d a => st ++ 0x6E#7 ++ d ++ a ++ 14#12
  | .vunplane st d a => st ++ 0x6E#7 ++ d ++ a ++ 46#12
  | .vscaleb st d a b t => st ++ 0x6E#7 ++ d ++ a ++ b ++ 4#3 ++ t.code
  | .vclass st d a t => st ++ 0x6E#7 ++ d ++ a ++ 6#8 ++ t.code
  | .setshape st d a k => st ++ 0x70#7 ++ d ++ a ++ 0#2 ++ k ++ 0#7
  | .mgang st a => st ++ 0x71#7 ++ 0#5 ++ a ++ 0#12
  | .mma st b a c => st ++ 0x72#7 ++ 0#3 ++ b ++ 0#2 ++ a ++ 0#2 ++ c ++ 0#7
  | .mmag st b a c v => st ++ 0x73#7 ++ 0#3 ++ b ++ 0#2 ++ a ++ 0#2 ++ c ++ 0#2 ++ v
  | .mdrain st b t z => st ++ 0x74#7 ++ 0#3 ++ b ++ 0#2 ++ t ++ 0#5 ++ z ++ 0#6
  | .mzero st b => st ++ 0x75#7 ++ 0#3 ++ b ++ 0#17
  | .mpsum st d b r q => st ++ 0x76#7 ++ d ++ 0#3 ++ b ++ r ++ q ++ 0#6
  | .mcfg st a => st ++ 0x77#7 ++ 0#5 ++ a ++ 0#12
  | .mscale st c k => st ++ 0x77#7 ++ 0#4 ++ c ++ 0#2 ++ k ++ 1#12
  | .tmov st d a => st ++ 0x77#7 ++ 0#2 ++ d ++ 0#2 ++ a ++ 2#12
  | .tmovv st v r k x => st ++ 0x77#7 ++ v ++ 0#1 ++ r ++ k ++ x ++ 3#7
  | .ttrans st d z a => st ++ 0x77#7 ++ 0#2 ++ d ++ z ++ a ++ 4#12
  | .mstatr st d a => st ++ 0x77#7 ++ d ++ a ++ 5#12
  | .tclr st k => st ++ 0x77#7 ++ 0#2 ++ k ++ 6#17
  | .cpy st d a => st ++ 0x78#7 ++ d ++ a ++ 0#12
  | .cpyd st d a => st ++ 0x78#7 ++ d ++ a ++ 1#12
  | .cpyfill st d a => st ++ 0x78#7 ++ d ++ a ++ 2#12
  | .rrot st d a b => st ++ 0x78#7 ++ d ++ a ++ b ++ 3#7
  | .allred st d a => st ++ 0x78#7 ++ d ++ a ++ 4#12
  | .bcastc st d a => st ++ 0x78#7 ++ d ++ a ++ 5#12
  | .inbdq st d => st ++ 0x78#7 ++ d ++ 6#17
  | .inbpeek st d => st ++ 0x78#7 ++ d ++ 7#17
  | .inbcfg st a b => st ++ 0x78#7 ++ 0#5 ++ a ++ b ++ 8#7
  | .bcfg st d a => st ++ 0x79#7 ++ d ++ a ++ 0#12
  | .broot st d a => st ++ 0x79#7 ++ d ++ a ++ 1#12
  | .bdesc st d a => st ++ 0x79#7 ++ d ++ a ++ 2#12
  | .bexp st d a => st ++ 0x79#7 ++ d ++ a ++ 3#12
  | .bback st d a => st ++ 0x79#7 ++ d ++ a ++ 4#12
  | .bpool st d a => st ++ 0x79#7 ++ d ++ a ++ 5#12
  | .breroot st d a => st ++ 0x79#7 ++ d ++ a ++ 6#12
  | .bstat st d a b => st ++ 0x79#7 ++ d ++ a ++ b ++ 7#7
  | .bdrop st d a => st ++ 0x79#7 ++ d ++ a ++ 8#12
  | .sxmit st a h n => st ++ 0x7A#7 ++ 0#5 ++ a ++ h ++ 0#1 ++ n
  | .ssel st a h n => st ++ 0x7B#7 ++ 0#5 ++ a ++ h ++ 0#1 ++ n
  | .csign st a => st ++ 0x7C#7 ++ 0#5 ++ a ++ 0#12
  | .bardom st a b => st ++ 0x7C#7 ++ 0#5 ++ a ++ b ++ 3#7
  | .bar st a => st ++ 0x7C#7 ++ 0#5 ++ a ++ 4#12
  | .snap st d a => st ++ 0x7C#7 ++ d ++ a ++ 5#12
  | .cstat st d a => st ++ 0x7C#7 ++ d ++ a ++ 6#12
  | .send st a b => st ++ 0x7D#7 ++ 0#5 ++ a ++ b ++ 0#7
  | .sendv st a b => st ++ 0x7D#7 ++ 0#5 ++ a ++ b ++ 1#7
  | .recv st d a => st ++ 0x7D#7 ++ d ++ a ++ 2#12
  | .recvv st d a => st ++ 0x7D#7 ++ d ++ a ++ 3#12
  | .recvtry st d a => st ++ 0x7D#7 ++ d ++ a ++ 4#12
  | .rld st a b => st ++ 0x7D#7 ++ 0#5 ++ a ++ b ++ 5#7
  | .rst st v a b => st ++ 0x7D#7 ++ v ++ a ++ b ++ 6#7
  | .chopen st a => st ++ 0x7D#7 ++ 0#5 ++ a ++ 7#12
  | .chclose st d a => st ++ 0x7D#7 ++ d ++ a ++ 8#12
  | .spawn st d a => st ++ 0x7E#7 ++ d ++ a ++ 0#12
  | .taskq st a => st ++ 0x7E#7 ++ 0#5 ++ a ++ 1#12
  | .taskend st => st ++ 0x7E#7 ++ 2#22
  | .gdone st => st ++ 0x7E#7 ++ 3#22
  | .mboxreg st d a b => st ++ 0x7E#7 ++ d ++ a ++ b ++ 4#7
  | .crr st d n => st ++ 0x7F#7 ++ d ++ n ++ 4#7
  | .crw st d n => st ++ 0x7F#7 ++ d ++ n ++ 5#7
  | .crset st d n => st ++ 0x7F#7 ++ d ++ n ++ 6#7
  | .crclr st d n => st ++ 0x7F#7 ++ d ++ n ++ 7#7
  | .tlbinv st a b => st ++ 0x7F#7 ++ 0#5 ++ a ++ b ++ 8#7
  | .pause st => st ++ 0x7F#7 ++ 9#22
  | .pgate st d a => st ++ 0x7F#7 ++ d ++ a ++ 11#12
  | .ctxsave st d a => st ++ 0x7F#7 ++ d ++ a ++ 12#12
  | .ctxload st a => st ++ 0x7F#7 ++ 0#5 ++ a ++ 13#12
  | .errrd st d a => st ++ 0x7F#7 ++ d ++ a ++ 14#12
  | .fencei => 0#3 ++ 0x39#7 ++ 1#22
  | .fencea => 0#3 ++ 0x39#7 ++ 3#22
  | .uiret => 0#3 ++ 0x78#7 ++ 9#22
  | .cdiss => 0#3 ++ 0x7C#7 ++ 1#22
  | .sstep => 0#3 ++ 0x7C#7 ++ 2#22
  | .sxend => 0#3 ++ 0x7C#7 ++ 7#22
  | .ecall => 0#3 ++ 0x7F#7 ++ 0#22
  | .ebrk => 0#3 ++ 0x7F#7 ++ 1#22
  | .eret => 0#3 ++ 0x7F#7 ++ 2#22
  | .wfi => 0#3 ++ 0x7F#7 ++ 3#22
  | .halt => 0#3 ++ 0x7F#7 ++ 10#22
  | .deviceReset => 0#32
  | .powerOnBringup => 0#32
  | .hartRelease => 0#32
  | .interruptEntry => 0#32
  | .userInterruptEntry => 0#32
  | .deferredTrap => 0#32
  | .timerExpiry => 0#32
  | .qdeadlk => 0#32
  | .loadResponse => 0#32
  | .amoResponse => 0#32
  | .homeRequest => 0#32
  | .forwardedRequest => 0#32
  | .writeAck => 0#32
  | .amoAtHome => 0#32
  | .etchCallExec => 0#32
  | .parkedReplay => 0#32
  | .routineFetchDone => 0#32
  | .clusterResend => 0#32
  | .pageWalk => 0#32
  | .qldDataArrival => 0#32
  | .qstartCopyDone => 0#32
  | .vredqPass => 0#32
  | .cpySectorWrite => 0#32
  | .engineCompletionPost => 0#32
  | .collectiveTimeout => 0#32
  | .descentStep => 0#32
  | .batchPost => 0#32
  | .bexpLeafCommit => 0#32
  | .bbackPass => 0#32
  | .bdropPass => 0#32
  | .reclaimAppend => 0#32
  | .compactCommit => 0#32
  | .csignTimeout => 0#32
  | .transferStart => 0#32
  | .hatchSlot => 0#32
  | .remoteBeatArrival => 0#32
  | .transferEnd => 0#32
  | .superstepBarrier => 0#32
  | .rollback => 0#32
  | .compactDissolve => 0#32
  | .barComplete => 0#32
  | .gangWindowOpen => 0#32
  | .mgangTimeout => 0#32
  | .launchTrigger => 0#32
  | .gangPlace => 0#32
  | .headAgeTick => 0#32
  | .runbEndPass => 0#32
  | .gridStall => 0#32
  | .domainHold => 0#32
  | .domainHeld => 0#32
  | .domainStart => 0#32
  | .domainHoldTimeout => 0#32
  | .domainReleased => 0#32
  | .domainRelease => 0#32
  | .msgArrival => 0#32
  | .msgRetry => 0#32
  | .rldRstReply => 0#32
  | .refusalArrival => 0#32
  | .remoteTimeout => 0#32
  | .routerArbitrate => 0#32
  | .routerAgeTick => 0#32
  | .linkRetrain => 0#32
  | .vcMerge => 0#32
  | .linkAudit => 0#32
  | .preemptRequest => 0#32
  | .proofSave => 0#32
  | .gangResume => 0#32
  | .pgateCommit => 0#32
  | .tilePowerUp => 0#32
  | .doorbell => 0#32
  | .regSpaceWrite => 0#32
  | .ctxkill => 0#32
  | .errclr => 0#32
  | .resetvec => 0#32
  | .errinjInject => 0#32
  | .errinjScrub => 0#32
  | .preqPreemptHold => 0#32
  | .preqRelease => 0#32
  | .hostMemWrite => 0#32
  | .hostMemRead => 0#32
  | .biasFlipHost => 0#32
  | .biasFlipDevice => 0#32
  | .birsp => 0#32
  | .biasFlipDone => 0#32
  | .coreDeviceAccess => 0#32
  | .dctx => 0#32
  | .pldmFwUpdate => 0#32
  | .fwActivate => 0#32
  | .fwActivateTimeout => 0#32
  | .spdmMeasurement => 0#32
  | .pldmSensorRead => 0#32
  | .pldmPowerCap => 0#32
  | .tileSpareRemap => 0#32
  | .hbmChannelSpare => 0#32
  | .thermalThrottle => 0#32
  | .thermalShutdown => 0#32
  | .thermalConditionClears => 0#32
  | .slicemapWrite => 0#32
  | .tileLoss => 0#32
  | .firmwareReady => 0#32
  | .failedDeviceRemoval => 0#32
  | .biasstatErrClear => 0#32

/-- The word at the head of a list of bytes, in the byte order of R1, and the bytes after it. -/
def takeWord : List Byte → Option (BitVec 32 × List Byte)
  | b0 :: b1 :: b2 :: b3 :: rest => some (b3 ++ b2 ++ b1 ++ b0, rest)
  | _ => none

/-- The four bytes of a word at rising addresses (R1). -/
def wordBytes (w : BitVec 32) : List Byte :=
  [slice w 0 8, slice w 8 8, slice w 16 8, slice w 24 8]

/-- Decoding of bytes: the instruction and the rest of the bytes. -/
def decode (bs : List Byte) : Except Reject (Instr × List Byte) :=
  match takeWord bs with
  | none => .error .tooShort
  | some (w, rest) =>
    match decodeWord w with
    | .error r => .error r
    | .ok i => .ok (i, rest)

/-- The instruction that the decoder reads from an instruction whose bits are `w`, numbered as
the opcode table numbers them; every row with bits has exactly one word of 32 bits. -/
def decodeTableWord (_nbits w : Nat) : Option Instr :=
  match decode (wordBytes (BitVec.ofNat 32 w)) with
  | .ok (i, _) => some i
  | .error _ => none

end Sys2Proof
end

