-- ==== Sys2Proof/Machine/Fp.lean ====
section
/-! DEFINITION. Number formats: exact values, the one rounding function, conversions, and the
arithmetic of the floating-point types (05 R91–R108, 08 R192, 09 R221, R222). -/
namespace Sys2Proof

/-- The sticky flags NV DZ OF UF NX, NV in bit 4 (05 R99). -/
abbrev FpFlags := BitVec 5

/-- Invalid (05 R99). -/
def flagNV : FpFlags := 0b10000#5
/-- Exact infinite result from finite operands (05 R99). -/
def flagDZ : FpFlags := 0b01000#5
/-- Overflow (05 R99). -/
def flagOF : FpFlags := 0b00100#5
/-- Underflow (05 R99). -/
def flagUF : FpFlags := 0b00010#5
/-- Inexact (05 R99). -/
def flagNX : FpFlags := 0b00001#5

/-- The rounding modes (05 R98). -/
inductive RoundMode where
  | rne | rtz | rdn | rup | rna
  deriving DecidableEq, Repr

/-- The mode that FPMODE.RM names; the codes 5 to 7 are never held (05 R98). -/
def RoundMode.ofCode (c : BitVec 3) : RoundMode :=
  match c.toNat with
  | 1 => .rtz | 2 => .rdn | 3 => .rup | 4 => .rna | _ => .rne

/-- What rounding reads of FPMODE (05 R98). -/
structure FpMode where
  rm : RoundMode
  ovnan : Bool
  deriving DecidableEq, Repr

/-- The value of a floating-point encoding: a NaN, an infinity, or (−1)^neg × m × 2^e
(05 R93, R94). A zero has m = 0 and keeps its sign. -/
inductive FVal where
  | nan
  | inf (neg : Bool)
  | fin (neg : Bool) (m : Nat) (e : Int)
  deriving DecidableEq, Repr

/-- The layout of a floating-point type (05 R93, R94). -/
structure FFmt where
  width : Nat
  manBits : Nat
  bias : Int
  /-- The mantissa (with `manBits + 1` bits) and exponent of the largest finite value. -/
  maxM : Nat
  maxE : Int
  /-- The image of the largest finite positive value. -/
  maxImage : Nat
  /-- The type has infinities; their positive image. -/
  infImage : Option Nat
  /-- The canonical NaN, for a type that has NaNs. -/
  nanImage : Option Nat
  deriving DecidableEq, Repr

/-- The layout of each floating-point type; F32 stands for every type that has none. -/
def ElemType.fmt : ElemType → FFmt
  | .bf16 => ⟨16, 7, 127, 255, 120, 0x7F7F, some 0x7F80, some 0x7FC0⟩
  | .f16 => ⟨16, 10, 15, 2047, 5, 0x7BFF, some 0x7C00, some 0x7E00⟩
  | .e4m3 => ⟨8, 3, 7, 14, 5, 0x7E, none, some 0x7F⟩
  | .e5m2 => ⟨8, 2, 15, 7, 13, 0x7B, some 0x7C, some 0x7E⟩
  | .e2m1 => ⟨4, 1, 1, 3, 1, 0x7, none, none⟩
  | .f32 | .i8 | .i16 | .i32 | .i64 | .n8 | .n16 | .n32 | .n64 | .bp =>
    ⟨32, 23, 127, 16777215, 104, 0x7F7FFFFF, some 0x7F800000, some 0x7FC00000⟩

namespace FFmt

/-- The exponent of the smallest normal value. -/
def emin (f : FFmt) : Int := 1 - f.bias

/-- The exponent of the smallest subnormal value. -/
def egrid (f : FFmt) : Int := f.emin - f.manBits

/-- The image with the sign bit set when `neg`. -/
def signed (f : FFmt) (neg : Bool) (image : Nat) : Nat :=
  if neg then image + 2 ^ (f.width - 1) else image

/-- The value of an image (05 R93, R94). -/
def value (f : FFmt) (x : Nat) : FVal :=
  let neg := x / 2 ^ (f.width - 1) % 2 == 1
  let mag := x % 2 ^ (f.width - 1)
  let ex := mag / 2 ^ f.manBits
  let fr := mag % 2 ^ f.manBits
  match f.infImage, f.nanImage with
  | some i, _ =>
    if mag = i then .inf neg
    else if i < mag then .nan
    else if ex = 0 then .fin neg fr f.egrid
    else .fin neg (fr + 2 ^ f.manBits) (f.egrid + ex - 1)
  | none, some n =>
    if mag = n then .nan
    else if ex = 0 then .fin neg fr f.egrid
    else .fin neg (fr + 2 ^ f.manBits) (f.egrid + ex - 1)
  | none, none =>
    if ex = 0 then .fin neg fr f.egrid
    else .fin neg (fr + 2 ^ f.manBits) (f.egrid + ex - 1)

/-- The canonical NaN with the sign bit clear (05 R95); zero for a type without NaNs. -/
def canonNaN (f : FFmt) : Nat := f.nanImage.getD 0

/-- The image of an infinity; the largest finite value for a type without infinities. -/
def infinity (f : FFmt) (neg : Bool) : Nat := f.signed neg (f.infImage.getD f.maxImage)

end FFmt

/-- `m / 2^sh` rounded to an integer, and whether that is inexact. With `sticky` the exact value
lies strictly between `m / 2^sh` and `(m + 1) / 2^sh` (the modes of 05 R100). -/
def roundShift (rm : RoundMode) (neg : Bool) (m sh : Nat) (sticky : Bool) : Nat × Bool :=
  let q := m / 2 ^ sh
  let r := m % 2 ^ sh
  let inexact := r != 0 || sticky
  let above := decide (2 ^ sh < 2 * r) || (decide (2 ^ sh = 2 * r) && sticky)
  let tie := decide (2 ^ sh = 2 * r) && !sticky
  let up := match rm with
    | .rne => above || (tie && q % 2 == 1)
    | .rna => above || tie
    | .rtz => false
    | .rdn => neg && inexact
    | .rup => !neg && inexact
  (if up then q + 1 else q, inexact)

/-- The result of an overflow (05 R101). -/
def overflowImage (t : ElemType) (md : FpMode) (neg : Bool) : Nat :=
  let f := t.fmt
  match t with
  | .e4m3 => if md.ovnan then f.signed neg 0x7F else f.signed neg f.maxImage
  | .e2m1 => f.signed neg f.maxImage
  | .f32 | .bf16 | .f16 | .e5m2 | .i8 | .i16 | .i32 | .i64 | .n8 | .n16 | .n32 | .n64 | .bp =>
    match md.rm with
    | .rne | .rna => f.infinity neg
    | .rtz => f.signed neg f.maxImage
    | .rdn => if neg then f.infinity true else f.maxImage
    | .rup => if neg then f.signed true f.maxImage else f.infinity false

/-- Round (05 R100) of the exact nonzero value (−1)^neg × m × 2^e; with `sticky` the value lies
strictly between m × 2^e and (m + 1) × 2^e in magnitude, and m has more bits than the type. -/
def roundMag (t : ElemType) (md : FpMode) (neg : Bool) (m : Nat) (e : Int) (sticky : Bool) :
    Nat × FpFlags :=
  let f := t.fmt
  let p := f.manBits + 1
  let n := m.log2 + 1
  let sh := n - p
  let (q, inex) := roundShift md.rm neg m sh sticky
  let qe : Int := e + sh
  let top : Int := q.log2 + qe
  let maxTop : Int := f.maxM.log2 + f.maxE
  let above := decide (maxTop < top) ||
    (decide (top = maxTop) && decide (f.maxM * 2 ^ (q.log2 + 1) < q * 2 ^ (f.maxM.log2 + 1)))
  if above then (overflowImage t md neg, flagOF ||| flagNX)
  else if top < f.emin then
    let d : Int := f.egrid - e
    if d ≤ 0 ∧ !sticky then (f.signed neg (m * 2 ^ (-d).toNat), 0#5)
    else
      let (k, inex') := roundShift md.rm neg m (min d.toNat (n + 2)) sticky
      (f.signed neg k, if inex' then flagUF ||| flagNX else 0#5)
  else
    let frac := (q * 2 ^ f.manBits) / 2 ^ q.log2 - 2 ^ f.manBits
    (f.signed neg ((top + f.bias).toNat * 2 ^ f.manBits + frac), if inex then flagNX else 0#5)

/-- Round(x, t, mode) for an exact value, zero keeping its sign (05 R100). -/
def roundFin (t : ElemType) (md : FpMode) (neg : Bool) (m : Nat) (e : Int) : Nat × FpFlags :=
  if m = 0 then (t.fmt.signed neg 0, 0#5) else roundMag t md neg m e false

/-- The image of a value in `t`: an infinity into a type without infinities overflows (05 R101). -/
def roundVal (t : ElemType) (md : FpMode) : FVal → Nat × FpFlags
  | .nan => (t.fmt.canonNaN, 0#5)
  | .inf neg =>
    if t.fmt.infImage.isSome then (t.fmt.infinity neg, 0#5)
    else (overflowImage t md neg, flagOF ||| flagNX)
  | .fin neg m e => roundFin t md neg m e

/-- The least value of an integer type. -/
def ElemType.minInt (t : ElemType) : Int := if t.isSigned then -(2 ^ (t.width - 1) : Nat) else 0

/-- The greatest value of an integer type. -/
def ElemType.maxInt (t : ElemType) : Int :=
  if t.isSigned then (2 ^ (t.width - 1) : Nat) - 1 else (2 ^ t.width : Nat) - 1

/-- The element read as an integer, signed for I types (09 R216). -/
def ElemType.toInt (t : ElemType) (x : Nat) : Int :=
  if t.isSigned && decide (2 ^ (t.width - 1) ≤ x) then (x : Int) - (2 ^ t.width : Nat) else x

/-- The low bits of an integer as an element. -/
def ElemType.ofInt (t : ElemType) (i : Int) : Nat := (i % (2 ^ t.width : Nat)).toNat

/-- An integer clamped to the range of a type. -/
def ElemType.clamp (t : ElemType) (i : Int) : Int := max t.minInt (min i t.maxInt)

/-- RoundToInteger (05 R105): the integer and whether the value was no integer. -/
def roundToInteger (rm : RoundMode) (neg : Bool) (m : Nat) (e : Int) : Int × Bool :=
  let (k, inex) :=
    if 0 ≤ e then (m * 2 ^ e.toNat, false)
    else roundShift rm neg m (min (-e).toNat (m.log2 + 3)) false
  (if neg then -(k : Int) else k, inex)

/-- A value converted to the integer type `t` (05 R105). -/
def toIntegerType (t : ElemType) (rm : RoundMode) : FVal → Nat × FpFlags
  | .nan => (0, flagNV)
  | .inf neg => (t.ofInt (if neg then t.minInt else t.maxInt), flagNV)
  | .fin neg m e =>
    let (i, inex) := roundToInteger rm neg m e
    if i < t.minInt ∨ t.maxInt < i then (t.ofInt (t.clamp i), flagNV)
    else (t.ofInt i, if inex then flagNX else 0#5)

/-- The exact value of an element of any type but BP (05 R93, R105). An exact zero computed from
an integer is +0 (05 R100). -/
def ElemType.value (t : ElemType) (x : Nat) : FVal :=
  if t.isInt then
    let i := t.toInt x
    .fin (decide (i < 0)) i.natAbs 0
  else t.fmt.value x

/-- Conversion of an exact value to `dst` (05 R105, from `IsNaN(e)` on). -/
def convVal (dst : ElemType) (md : FpMode) (v : FVal) : Nat × FpFlags :=
  if dst.isInt then toIntegerType dst md.rm v
  else match dst, v with
    | .e2m1, .nan => (0, flagNV)
    | _, _ => roundVal dst md v

/-- Cvt (05 R105): one element from `src` to `dst`. -/
def cvt (dst src : ElemType) (md : FpMode) (x : Nat) : Nat × FpFlags :=
  if src = dst then (x, 0#5)
  else if src.isInt && dst.isInt then (dst.ofInt (dst.clamp (src.toInt x)), 0#5)
  else convVal dst md (src.value x)

/-! Exact arithmetic on values. -/

/-- The sign of a value; a NaN has none that matters. -/
def FVal.neg? : FVal → Bool
  | .nan => false
  | .inf n => n
  | .fin n _ _ => n

def FVal.isNaN : FVal → Bool
  | .nan => true
  | .inf _ | .fin _ _ _ => false

def FVal.isInf : FVal → Bool
  | .inf _ => true
  | .nan | .fin _ _ _ => false

def FVal.isZero : FVal → Bool
  | .fin _ m _ => m == 0
  | .nan | .inf _ => false

/-- The value with the other sign. -/
def FVal.flip : FVal → FVal
  | .nan => .nan
  | .inf n => .inf !n
  | .fin n m e => .fin (!n) m e

/-- The exact sum of two dyadic numbers given with their signs in the mantissas. -/
def dyAdd (a b : Int × Int) : Int × Int :=
  let e := min a.2 b.2
  (a.1 * 2 ^ (a.2 - e).toNat + b.1 * 2 ^ (b.2 - e).toNat, e)

/-- The signed mantissa and exponent of a finite value. -/
def FVal.dyadic : FVal → Int × Int
  | .fin n m e => (if n then -(m : Int) else m, e)
  | .nan | .inf _ => (0, 0)

/-- Round of an exact dyadic number that is not zero. -/
def roundDy (t : ElemType) (md : FpMode) (d : Int × Int) : Nat × FpFlags :=
  roundMag t md (decide (d.1 < 0)) d.1.natAbs d.2 false

/-- The sum p + q of two values, rounded once (08 R192, 09 R221). -/
def fAddVal (t : ElemType) (md : FpMode) (p q : FVal) : Nat × FpFlags :=
  let f := t.fmt
  match p, q with
  | .nan, _ | _, .nan => (f.canonNaN, 0#5)
  | .inf a, .inf b => if a == b then (f.infinity a, 0#5) else (f.canonNaN, flagNV)
  | .inf a, .fin _ _ _ => (f.infinity a, 0#5)
  | .fin _ _ _, .inf b => (f.infinity b, 0#5)
  | .fin na ma _, .fin nb mb _ =>
    let s := dyAdd p.dyadic q.dyadic
    if s.1 = 0 then
      if ma = 0 ∧ mb = 0 ∧ na = nb then (f.signed na 0, 0#5)
      else (f.signed (md.rm == .rdn) 0, 0#5)
    else roundDy t md s

/-- FAdd (08 R192) and the Add of VADD (09 R221). -/
def fAdd (t : ElemType) (md : FpMode) (a b : Nat) : Nat × FpFlags :=
  fAddVal t md (t.fmt.value a) (t.fmt.value b)

/-- The exact product of two values that are not an infinity and a zero; the flag is NV where
an infinity meets a zero (09 R221). -/
def FVal.mul (a b : FVal) : FVal × FpFlags :=
  match a, b with
  | .nan, _ | _, .nan => (.nan, 0#5)
  | .inf x, .inf y => (.inf (x != y), 0#5)
  | .inf x, .fin y m _ => if m = 0 then (.nan, flagNV) else (.inf (x != y), 0#5)
  | .fin x m _, .inf y => if m = 0 then (.nan, flagNV) else (.inf (x != y), 0#5)
  | .fin x m e, .fin y k g => (.fin (x != y) (m * k) (e + g), 0#5)

/-- VMUL (09 R221). -/
def fMul (t : ElemType) (md : FpMode) (a b : Nat) : Nat × FpFlags :=
  let (p, fl) := (t.fmt.value a).mul (t.fmt.value b)
  let (r, fl') := roundVal t md p
  (r, fl ||| fl')

/-- p + q with p the product of a and b, its sign inverted when `negP`, and q the value c, its
sign inverted when `negC` (the FMA family, 09 R221). -/
def fFma (t : ElemType) (md : FpMode) (negP negC : Bool) (a b c : Nat) : Nat × FpFlags :=
  let va := t.fmt.value a
  let vb := t.fmt.value b
  let vc := t.fmt.value c
  if va.isNaN || vb.isNaN || vc.isNaN then (t.fmt.canonNaN, 0#5)
  else
    let (p, fl) := va.mul vb
    match p with
    | .nan => (t.fmt.canonNaN, fl)
    | _ => fAddVal t md (if negP then p.flip else p) (if negC then vc.flip else vc)

/-- a < b on values that are no NaN, with −0 below +0 when `zeros`. -/
def FVal.lt (zeros : Bool) (a b : FVal) : Bool :=
  match a, b with
  | .nan, _ | _, .nan => false
  | .inf x, .inf y => x && !y
  | .inf x, .fin _ _ _ => x
  | .fin _ _ _, .inf y => !y
  | .fin x m _, .fin y k _ =>
    let s := dyAdd b.dyadic a.flip.dyadic
    if m = 0 ∧ k = 0 then zeros && x && !y else decide (0 < s.1)

/-- FMax (08 R192) and VMAX (09 R221). -/
def fMax (t : ElemType) (a b : Nat) : Nat :=
  let va := t.fmt.value a
  let vb := t.fmt.value b
  if va.isNaN && vb.isNaN then t.fmt.canonNaN
  else if va.isNaN then b else if vb.isNaN then a
  else if va.lt true vb then b else a

/-- VMIN: the lesser by the same rules (09 R221). -/
def fMin (t : ElemType) (a b : Nat) : Nat :=
  let va := t.fmt.value a
  let vb := t.fmt.value b
  if va.isNaN && vb.isNaN then t.fmt.canonNaN
  else if va.isNaN then b else if vb.isNaN then a
  else if vb.lt true va then b else a

/-- Scale (05 R108): x × 2^n rounded once. -/
def fScale (t : ElemType) (md : FpMode) (x : Nat) (n : Int) : Nat × FpFlags :=
  match t.fmt.value x with
  | .nan => (t.fmt.canonNaN, 0#5)
  | .inf _ => (x, 0#5)
  | .fin neg m e => if m = 0 then (x, 0#5) else roundMag t md neg m (e + n) false

/-- The class code of an element (05 R108). -/
def fClass (t : ElemType) (x : Nat) : Nat :=
  let f := t.fmt
  match f.value x with
  | .nan => 8
  | .inf neg => if neg then 0 else 7
  | .fin neg m _ =>
    if m = 0 then (if neg then 3 else 4)
    else if m < 2 ^ f.manBits then (if neg then 2 else 5)
    else (if neg then 1 else 6)

/-! Sums of many values, exact and rounded once. -/

/-- The exact sum of the finite members of a list. -/
def exactSum (vs : List FVal) : Int × Int := vs.foldl (fun s v => dyAdd s v.dyadic) (0, 0)

/-- One rounding of the exact sum of a nonempty list of values: the rules of VREDSUM (09 R228). -/
def fSum (t : ElemType) (md : FpMode) (vs : List FVal) : Nat × FpFlags :=
  let f := t.fmt
  if vs.any FVal.isNaN then (f.canonNaN, 0#5)
  else if vs.any (· == .inf false) && vs.any (· == .inf true) then (f.canonNaN, flagNV)
  else if vs.any (· == .inf false) then (f.infinity false, 0#5)
  else if vs.any (· == .inf true) then (f.infinity true, 0#5)
  else
    let s := exactSum vs
    if s.1 = 0 then
      if vs.all (fun v => v.isZero && v.neg?) then (f.signed true 0, 0#5)
      else if vs.all (fun v => v.isZero && !v.neg?) then (f.signed false 0, 0#5)
      else (f.signed (md.rm == .rdn) 0, 0#5)
    else roundDy t md s

end Sys2Proof
end

