-- ==== Sys2Proof/Machine/State.lean ====
section
/-! DEFINITION. The state of the device as plain data: tiles, memory, directories, engines,
dispatcher, links, host side and management, and the state after reset. -/
namespace Sys2Proof.Machine

/-! ### Memory: a list of (address, byte) in canonical form -/

/-- Bytes by address. The addresses rise strictly and no entry equals what an unlisted address
reads as, which is zero (log 1). -/
abbrev Memory := List Host.Cell

/-- What an unlisted address reads as (log 1). -/
def Memory.unlisted : Byte := 0#8

/-- The canonical form. -/
def Memory.wf : Memory → Bool
  | [] => true
  | [(_, b)] => b != Memory.unlisted
  | (a, b) :: (a', b') :: rest =>
    b != Memory.unlisted && decide (a < a') && Memory.wf ((a', b') :: rest)

/-- One byte. -/
def Memory.read (m : Memory) (a : Nat) : Byte :=
  match m with
  | [] => Memory.unlisted
  | (a', b) :: rest => if a = a' then b else Memory.read rest a

/-- One byte that is not the unlisted value put in its place. -/
def Memory.insert (m : Memory) (a : Nat) (v : Byte) : Memory :=
  match m with
  | [] => [(a, v)]
  | (a', b) :: rest =>
    if a = a' then (a, v) :: rest
    else if a < a' then (a, v) :: (a', b) :: rest
    else (a', b) :: Memory.insert rest a v

/-- One byte written; writing the unlisted value removes the entry. -/
def Memory.write (m : Memory) (a : Nat) (v : Byte) : Memory :=
  if v = Memory.unlisted then m.filter (fun c => c.1 != a) else m.insert a v

/-! ### Small state types -/

/-- The four units that execute words: the execute hart, the access sequencer, the store
sequencer (01 R11) and the vector sequencer that replays a FRAME (04 R76). -/
inductive UnitId where
  | eh | as | ss | vs
  deriving DecidableEq, Repr

/-- A write of a fixed-latency result that is not visible yet: register, value, and the issue
position from which it is visible (02 R45). -/
structure Pend (w : Nat) where
  reg : Nat
  val : BitVec w
  at_ : Nat
  /-- Written by a replayed word (02 R50). -/
  replay : Bool
  deriving DecidableEq, Repr

/-- A register file: the values visible to all, the writes of fixed latency not visible yet,
newest first, and the execute hart's writes that a running FRAME replay does not see (04 R77). -/
structure RegFile (n w : Nat) where
  base : Vector (BitVec w) n
  pend : List (Pend w)
  late : List (Nat × BitVec w)
  deriving DecidableEq, Repr, Inhabited

/-- A file of zeros (log 2). -/
def RegFile.zero (n w : Nat) : RegFile n w := ⟨Vector.replicate n 0, [], []⟩

/-- What a held word has been served with: nothing yet, an uncorrectable error, or its value. -/
inductive HeldValue where
  | waits
  | lost
  | word (v : Word)
  deriving DecidableEq, Repr

/-- A word of a pinned range that an instruction reads: its physical address, and what the barrier
of the compact has served it with (13 R335). -/
structure HeldWord where
  pa : Nat
  value : HeldValue
  deriving DecidableEq, Repr

/-- What an instruction that has not completed has begun: a CTXSAVE into an area whose pages of
64 KiB stand at these physical addresses (16 R418); a CTXLOAD that has overwritten the tile
registers, banks, instruction stores and segments (16 R419); a WFI that waits (16 R407); a FENCE
that waits for the requests with lower numbers (07 R172); or a CSIGN or BARDOM that has met words in
pinned ranges. -/
inductive Begun where
  | save (pages : List Nat)
  | load
  | wfi
  | fence (mark : Nat)
  | reads (held : List HeldWord)
  deriving DecidableEq, Repr

/-- One execute hart or sequencer: x registers (24 to 31 again at 32 to 39 as the shadow bank of
11 R291), program counter, issue position (02 R44), wait state (04 R86), and what the instruction
that stands at the program counter has begun. -/
structure Core where
  x : RegFile 40 64
  pc : Word
  pos : Nat
  wait : Nat
  begun : Option Begun
  deriving DecidableEq, Repr, Inhabited

/-- The image copy of a QSTART in progress (06 R146): the physical addresses of its lines, its
length and its address, and the lines that were held at a compact and have been read there, with the
sector that was lost or the data (13 R335). -/
structure ImageCopy where
  lines : List Nat
  len : Nat
  va : Word
  served : List (Nat × (Nat ⊕ BitVec 1024))
  deriving DecidableEq, Repr

/-- A sequencer: its core, whether it runs, its private instruction store, and the image copy of a
QSTART in progress (06 R146). -/
structure Sequencer where
  core : Core
  running : Bool
  store : Memory
  copying : Option ImageCopy
  deriving DecidableEq, Repr, Inhabited

/-- A FRAME replay in progress (04 R76, R78): address of the FRAME word, the word, its window,
iteration, position, the vector sequencer's count (02 R50), and the number below which requests of
the execute hart are older than the replay. -/
structure FrameRun where
  addr : Word
  frame : Word32
  words : List Word32
  iter : Nat
  at_ : Nat
  pos : Nat
  born : Nat
  deriving DecidableEq, Repr

/-- Why an execute hart does not issue (16 R410, R421, R412). -/
inductive RunState where
  | running | halted | gated
  /-- The context of the hart has been saved away or is being saved (16 R412). -/
  | stopped
  deriving DecidableEq, Repr, Inhabited

/-- The control registers that are stored as they read (16 R399). Registers that show other
state are computed where they are read. -/
structure CtrlRegs where
  status : Word
  fpmode : Word
  fpflags : Word
  syncscope : Word
  wincfg : Word
  framepos : Word
  uvec : Word
  uepc : Word
  /-- INBCTL without COUNT (11 R272). -/
  inbctl : Word
  inbcnta : Word
  barstat : Word
  taskret : Word
  mstat : Word
  shape : Vector Word 8
  mxcfg : Word
  ctxid : Word
  netctx : Word
  segmode : Word
  trbase : Word
  mfinfo : Word
  etbase : Word
  timecmp : Word
  ienable : Word
  /-- IPEND.SOFT and the event bits PREEMPT, ERRNOTIFY, BURINPOOL, GRIDSTALL (16 R460). -/
  ipend : Word
  sepc : Word
  stcause : Word
  stval : Word
  stvec : Word
  sscratch : Word
  fepc : Word
  ftcause : Word
  ftval : Word
  /-- None until FIRM first writes it (16 R457). -/
  ftvec : Option Word
  fscratch : Word
  tdeleg : Word
  deriving DecidableEq, Repr, Inhabited

/-- The control registers after reset (16 R400–R402, 05 R98, R99, 07 R171, 10 R237, R238,
11 R272). -/
def CtrlRegs.reset : CtrlRegs where
  status := 8#64
  fpmode := 0
  fpflags := 0
  syncscope := 3
  wincfg := 0
  framepos := 0
  uvec := 0
  uepc := 0
  inbctl := 0x104#64
  inbcnta := 0
  barstat := 0
  taskret := 0
  mstat := 0
  shape := Vector.replicate 8 0x4040#64
  mxcfg := 0x18899#64
  ctxid := 0
  netctx := 0
  segmode := 0
  trbase := 0
  mfinfo := 0
  etbase := 0
  timecmp := BitVec.allOnes 64
  ienable := 0
  ipend := 0
  sepc := 0
  stcause := 0
  stval := 0
  stvec := 0
  sscratch := 0
  fepc := 0
  ftcause := 0
  ftval := 0
  ftvec := none
  fscratch := 0
  tdeleg := 0

/-! ### Memory accesses under way -/

/-- A piece of an access that lies in one aligned 8-byte word (07 R154): physical address with
the device in [55:44] (06 R112), size in bytes, its place in the register image in bytes, the
attributes of its leaf (06 R116), the data to store or the data loaded, and whether its home has
performed it. -/
structure Acc where
  pa : Nat
  size : Nat
  off : Nat
  pvt : Bool
  mt : Bool
  data : Nat
  done : Bool
  deriving DecidableEq, Repr

/-- What a request does at its home. The amo operations carry their code of 08 R191. -/
inductive ReqKind where
  | load
  | store
  | amo (op : Nat)
  | cas (expect : Nat)
  | etch (id : Nat) (ops : List Word) (etbase : Word)
  deriving DecidableEq, Repr

/-- Where the result of a request goes. -/
inductive Dest where
  | none
  /-- An x register of the unit: number in the file of 40, bytes, sign extension. -/
  | x (r : Nat) (size : Nat) (signed : Bool)
  /-- Two x registers, for the results of an Etch call. -/
  | x2 (r₁ r₂ : Nat)
  /-- A v register of the execute hart; the bytes that no piece covers take those of `old`, the
  register's image at issue. -/
  | v (r : Nat) (old : Vec)
  /-- A tile register. -/
  | t (r : Nat)
  /-- An entry of a stream queue, by its ticket: of an inbound one, or of an outbound one when a
  bound v register is the destination. -/
  | queue (k : Nat) (ticket : Nat)
  deriving DecidableEq, Repr

/-- A trap that waits for an instruction boundary (08 R201, 11 R282, 14 R356, 02 R40). -/
structure Deferred where
  cause : Nat
  tval : Word
  mfinfo : Option Word
  deriving DecidableEq, Repr

/-- Why a request stands still at its home (08 R198, 13 R335). -/
inductive Parked where
  /-- Corrected retry of the line. -/
  | retry
  /-- The image of the routine is being fetched. -/
  | routineMiss
  /-- The table entry or the image failed to translate. -/
  | routineFault
  /-- The line is pinned by a compact. -/
  | pinned
  /-- A load of pinned memory, held until the member's next superstep barrier. -/
  | held
  /-- The pool of a search tree is exhausted (12 R305). -/
  | pool
  deriving DecidableEq, Repr

/-- How far a request has come at its home: on its way, passed on to the owning tile (14 R363), in
the queue of the Etch unit, or refused at a full queue until its cluster sends it again (08 R188,
R197). -/
inductive Stage where
  | sent | forwarded | queued | refused
  deriving DecidableEq, Repr

/-- A request of a tile's unit that has been issued and whose response has not been taken. -/
structure Req where
  id : Nat
  unit : UnitId
  /-- Another party than the unit performs it: the increment of the inbox count (06 R458,
  07 R153), for the record with this KIND, ENGINE and SEQ, in their places of 11 R282. -/
  engine : Option (BitVec 24)
  stage : Stage
  kind : ReqKind
  accs : List Acc
  dest : Dest
  /-- The address of the access, for reports. -/
  va : Word
  ctx : Nat
  level : Nat
  mode : FpMode
  /-- SYNCSCOPE when the ordering field acquires. -/
  acquire : Option Nat
  flags : BitVec 5
  result : List Word
  error : Option Deferred
  parked : Option Parked
  /-- Its place in the order in which requests were parked or queued (08 R188, R198). -/
  arrival : Nat
  /-- The control clock at which it left its unit (14 R368). -/
  sent : Nat
  /-- The host has answered the snoop that the home sent for this request (17 R432). -/
  snooped : Bool
  /-- With TWIN, the copy of the pair's other tile has been compared (13 R340). -/
  paired : Bool
  /-- All pieces performed and the home has answered. -/
  answered : Bool
  deriving DecidableEq, Repr

/-- A line in the tile cache (06 R122): line address, copy of its 128 bytes, the segment that holds
it, ownership (06 R123), the sectors that are filled, the dirty ones, and the owner tag of each
dirty sector (08 R186, 13 R336). -/
structure CacheLine where
  addr : Nat
  data : BitVec 1024
  way : Nat
  owned : Bool
  valid0 : Bool
  valid1 : Bool
  dirty0 : Bool
  dirty1 : Bool
  tag0 : Nat
  tag1 : Nat
  deriving DecidableEq, Repr

/-- A translation held by a TLB (06 R118): context, virtual page, the leaf, and whether it maps
512 MiB. -/
structure TlbEntry where
  ctx : Nat
  page : Nat
  big : Bool
  leaf : Word
  deriving DecidableEq, Repr

/-- An entry of a stream queue (06 R142): its ticket, its data, and whether they have arrived.
An entry whose data met an uncorrectable error waits for its trap (06 R143). -/
structure QEntry where
  ticket : Nat
  data : Vec
  arrived : Bool
  faulted : Bool
  deriving DecidableEq, Repr

/-- What a request on a full/empty word waits for (06 R138, R139). -/
inductive FeKind where
  | ldw | ldwe | stw | feget
  deriving DecidableEq, Repr

/-- A request waiting on a full/empty word, or a task parked there (06 R139, 15 R395). -/
structure FeWait where
  addr : Nat
  kind : FeKind
  /-- The requesting tile. -/
  tile : Nat
  /-- The data of an STW. -/
  data : Word
  /-- The word's tile has served it; the value of a load. -/
  served : Option Word
  /-- The task that an LDF squashed: its id in its hart's table. -/
  task : Option Nat
  /-- A load of pinned memory, held until the member's next superstep barrier (13 R335). -/
  held : Bool
  /-- The word of the instruction, which has issued and is not fetched again (06 R140, R152). -/
  word : Word32
  deriving DecidableEq, Repr

/-- A completion record of the inbox (11 R271). -/
structure Record where
  w0 : Word
  w1 : Word
  w2 : Word
  w3 : Word
  deriving DecidableEq, Repr

/-- How a command ended (11 R271, R281): status, code, failing address, flags, and MFINFO of a
failed access. -/
structure CmdEnd where
  status : Nat
  code : Nat
  faddr : Word
  flags : BitVec 5
  mfinfo : Option Word
  deriving DecidableEq, Repr

/-- The outcome of a descent (12 R301). -/
inductive DescentEnd where
  | leaf | collide | terminal | aborted
  deriving DecidableEq, Repr

/-- A choice of a child under way (12 R300): the number of children and their block, c × √N, the
next child, and the best score that is not NaN so far with its child. -/
structure Selection where
  count : Nat
  block : Word
  cs : BitVec 32
  next : Nat
  best : Option (Nat × BitVec 32)
  deriving DecidableEq, Repr

/-- A descent of a BDESC (12 R301, R302): its path, root first; the node it stands at and that
node's DEPTH; the header words it read; the node steps it has finished and a choice under way; its
outcome and the nodes whose virtual loss it still has to remove; whether the header still has to
take note of its end; and its entry once it has ended. `fault` is MFINFO of the access that failed,
`failed` says that the entry could not be written, at `entryVa`. -/
structure Descent where
  path : List Word
  node : Word
  depth : BitVec 16
  c : BitVec 32
  vloss : BitVec 32
  steps : Nat
  select : Option Selection
  outcome : Option DescentEnd
  undo : List Word
  headerDue : Bool
  code : Nat
  fault : Option Word
  entry : Option Word
  failed : Bool
  /-- The condition and the line by which its access is parked there, and its place in the order in
  which requests were parked (08 R198). -/
  parked : Option (Parked × Nat × Nat)
  deriving DecidableEq, Repr

/-- A command in a slot of an engine (11 R266, R271): engine and funct, its operands, the level
at which it was issued (06 R458), and how far it has come. -/
structure Command where
  engine : Nat
  kind : Nat
  seq : Nat
  tag : Word
  ctx : Nat
  level : Nat
  ops : List Word
  ctl : Word
  /-- Its engine has begun it in its hart's turn (11 R267). -/
  begun : Bool
  started : Bool
  /-- Bytes written, or nodes updated, so far; the row of a CPYD; a Burin phase. -/
  pos : Nat
  row : Nat
  /-- Descriptor words of a CPYD, header words of a Burin command, once read. -/
  desc : List Word
  cursor : Word
  value : BitVec 32
  done : Nat
  waiting : Option Parked
  /-- The line at which an access of it is parked, and its place in the order in which requests were
  parked (08 R198, 11 R283). -/
  line : Nat
  arrival : Nat
  /-- What it has read for a write that waits (11 R277, R283). -/
  buffer : List Nat
  /-- BURINPOOL has been raised for this command (12 R305); of a collective, its members on other
  devices have issued (11 R285). -/
  raised : Bool
  descents : List Descent
  batches : Nat
  /-- With TWIN, the hash of the write that it holds ready until the other tile's copy has come, and
  whether the two match once both have (13 R340). -/
  copy : Option (Word × Option Bool)
  /-- The control clock at which the first member of its RROT or collective issued. -/
  since : Nat
  ended : Option CmdEnd
  word2 : Word
  word3 : Word
  deriving DecidableEq, Repr

/-- The phases of a compact member (13 R314). -/
inductive Phase where
  | free | signing | compute | transfer | barrier | dissolving
  deriving DecidableEq, Repr, Inhabited

/-- An entry of the hatch table of a tile (13 R326): read by an SXMIT or written by an SSEL. -/
structure HatchEntry where
  send : Bool
  port : Nat
  slot : Nat
  offset : Nat
  done : Bool
  deriving DecidableEq, Repr

/-- The instructions whose arrival BARSTAT records (13 R333). -/
inductive Barrier where
  | bar | csign | sxend | cdiss
  deriving DecidableEq, Repr

/-- A CSIGNFAIL that a member takes at its next barrier instruction: code, index, and MFINFO where
an access failed (13 R318, R320). -/
structure Verdict where
  code : Nat
  index : Nat
  mfinfo : Option Word
  deriving DecidableEq, Repr

/-- What a tile knows of its compact (13 R314, R327, R341): `verdict` is a CSIGNFAIL, code and
member index, that its hart takes at the barrier instruction it waits in (13 R318, R320, R343). -/
structure Member where
  phase : Phase
  /-- The compact's number on this device. -/
  compact : Nat
  index : Nat
  twin : Bool
  count : Nat
  miss : Nat
  hatch : List HatchEntry
  /-- Sectors of the range written since the latest snapshot (13 R337). -/
  written : List Nat
  snapRequested : Bool
  verdict : Option Verdict
  /-- The instruction whose arrival stands in BARSTAT; none where software has written BARSTAT. -/
  barrier : Option Barrier
  /-- The domain of the compact that has dissolved while its CDISS was not at issue (13 R333). -/
  left : Option Nat
  deriving DecidableEq, Repr, Inhabited

def Member.free : Member := ⟨.free, 0, 0, false, 0, 0, [], [], false, none, none, none⟩

/-- The window of an open gang issue (10 R260, R261). -/
structure GangWindow where
  mask : BitVec 8
  lead : Nat
  count : Nat
  deriving DecidableEq, Repr

/-- An arrival of MGANG that waits: its control word, when it arrived, its instruction word, and
whether the window has opened, so that the MGANG completes by its next turn (10 R260). -/
structure GangArrival where
  word : Word
  at_ : Nat
  instr : Word32
  opened : Bool
  deriving DecidableEq, Repr

/-! ### Messages -/

/-- An entry of a receive channel: header (14 R347) and 64 bytes. -/
structure Msg where
  hdr : Word
  data : Vec
  deriving DecidableEq, Repr

/-- A receive channel (14 R345, R346). -/
structure Channel where
  isOpen : Bool
  entries : List Msg
  reserved : Nat
  deriving DecidableEq, Repr, Inhabited

def Channel.closed : Channel := ⟨false, [], 0⟩

/-- An entry of the injection queue (14 R345, R351): header and data of the message, destination
word, whether it is a FENCEM marker, its number, since when it is under way, and when it departs
again after a refusal for now. It leaves once every request of its hart with a lower number has been
acknowledged (07 R178). -/
structure InjEntry where
  msg : Msg
  dest : Word
  marker : Bool
  id : Nat
  sent : Option Nat
  retryAt : Option Nat
  /-- With TWIN, the copy of the pair's other tile has been compared (13 R340). -/
  paired : Bool
  /-- The gang of its sender has ended (15 R379). -/
  orphan : Bool
  /-- The context that sent it (14 R371). -/
  ctx : Nat
  deriving DecidableEq, Repr

/-- An RLD or RST under way (14 R354). -/
structure RemoteReq where
  id : Nat
  write : Bool
  va : Word
  accs : List Acc
  chan : Nat
  tag : Nat
  ctx : Nat
  sent : Nat
  /-- With TWIN, the copy of the pair's other tile has been compared (13 R340). -/
  paired : Bool
  parked : Option Parked
  /-- When it parked (08 R198). -/
  arrival : Nat
  deriving DecidableEq, Repr

/-! ### Tasks -/

/-- A task of the task table (15 R392). -/
structure Task where
  id : Nat
  routine : Word
  arg : Word
  cword : Word
  deriving DecidableEq, Repr

/-- The task table of a hart: READY tasks in order, PARKED tasks, the running one, and the flags
the running task started with (15 R392, R394). -/
structure TaskTable where
  ready : List Task
  parked : List Task
  running : Option Task
  side : Bool
  startFlags : Word
  startMstat : Word
  deriving DecidableEq, Repr, Inhabited

def TaskTable.empty : TaskTable := ⟨[], [], none, false, 0, 0⟩

/-- The place of a hart in its gang (15 R376, 14 R348). -/
structure Place where
  lid : Nat
  gang : Nat
  group : Nat
  hart : Nat
  /-- Launch HARTID. -/
  launch : Nat
  /-- Barrier domains granted to the gang. -/
  domains : BitVec 64
  joint : Bool
  deriving DecidableEq, Repr

/-- What the always-on doorbell of a tile keeps while the tile is gated (16 R408, R421). -/
structure Doorbell where
  ftvec : Option Word
  pgate : Word
  retain : Bool
  rung : Bool
  pending : Bool
  deriving DecidableEq, Repr, Inhabited

/-! ### The tile -/

/-- A tile: execute hart, sequencers, vector and matrix registers, SRAM, queues, and what its
engines, dispatcher and compact keep for it (01, the tile). -/
structure Tile where
  eh : Core
  acSeq : Sequencer
  stSeq : Sequencer
  v : RegFile 32 512
  m : RegFile 8 64
  t : Vector (Vector Vec 64) 8
  acc : Vector (Vector (Vector Word32 64) 64) 4
  rs : Vector Word32 64
  cs : Vector Word32 64
  ks : Vector (Vector Nat 64) 4
  /-- Matrix-side items that hold an uncorrectable error (10 R263): 0 to 7 the tile registers, 8 to
  11 the banks, 12 RS, 13 CS. -/
  unsound : List Nat
  window : Option GangWindow
  arrival : Option GangArrival
  run : RunState
  cr : CtrlRegs
  frame : Option FrameRun
  bind : BitVec 4
  queues : Vector (List QEntry) 8
  boqA : List Bool
  boqS : List Bool
  boqE : List Bool
  /-- Control clock since which the three units have been waiting on one another (04 R86). -/
  stuckSince : Option Nat
  sram : Memory
  /-- Addresses of the EMPTY words of the SRAM, rising (06 R138). -/
  empty : List Nat
  feWaits : List FeWait
  cache : List CacheLine
  tlb : List TlbEntry
  /-- Instruction words fetched and not yet issued (07 R177). -/
  fetched : List (Nat × Word32)
  reqs : List Req
  deferred : List Deferred
  /-- Destinations of failed requests whose deferred traps have not been taken (08 R201). -/
  failed : List (UnitId × Dest)
  inbox : List Record
  /-- The level at which INBCFG last set INBCNTA (06 R458). -/
  inbcntLevel : Nat
  cmds : List Command
  /-- Ring rotations and collectives that ended by time before the hart issued its own command
  (11 R285): engine, and the MASK or GSEL that names the member set. -/
  late : List (Nat × Nat)
  channels : Vector Channel 8
  inj : List InjEntry
  remote : List RemoteReq
  tasks : TaskTable
  member : Member
  place : Option Place
  /-- The areas that CTXSAVE has written of the hart and that have not been loaded since, newest
  first: what comes for the hart goes to the newest (16 R415). -/
  away : List Nat
  /-- The hart has been resumed and has not come to its first instruction (14 R351). -/
  loading : Bool
  doorbell : Doorbell
  /-- The tile holds work: it is placeable and not lost (01 R14). -/
  placeable : Bool
  /-- The physical tile that serves it: 32 is the spare of the cluster (01 R14). -/
  physical : Nat
  deriving DecidableEq, Repr, Inhabited

/-- The FIRM reset vector of a die (16 R411). -/
def resetVector (die : Nat) : Word := BitVec.ofNat 64 (die * 0x1800000000)

/-- A stopped sequencer (01 R30); its registers and store after reset are zero (log 2). -/
def Sequencer.reset : Sequencer := ⟨⟨RegFile.zero 40 64, 0, 0, 5, none⟩, false, [], none⟩

/-- Tile `n` at reset (01 R30). -/
def Tile.reset (n : Nat) : Tile where
  eh := ⟨RegFile.zero 40 64, resetVector (n / 512), 0, 0, none⟩
  acSeq := Sequencer.reset
  stSeq := Sequencer.reset
  v := RegFile.zero 32 512
  m := RegFile.zero 8 64
  t := Vector.replicate 8 (Vector.replicate 64 0)
  acc := Vector.replicate 4 (Vector.replicate 64 (Vector.replicate 64 0))
  rs := Vector.replicate 64 0x3F800000#32
  cs := Vector.replicate 64 0x3F800000#32
  ks := Vector.replicate 4 (Vector.replicate 64 0)
  unsound := []
  window := none
  arrival := none
  run := .halted
  cr := CtrlRegs.reset
  frame := none
  bind := 0
  queues := Vector.replicate 8 []
  boqA := []
  boqS := []
  boqE := []
  stuckSince := none
  sram := []
  empty := []
  feWaits := []
  cache := []
  tlb := []
  fetched := []
  reqs := []
  deferred := []
  failed := []
  inbox := []
  inbcntLevel := 0
  cmds := []
  late := []
  channels := Vector.replicate 8 Channel.closed
  inj := []
  remote := []
  tasks := TaskTable.empty
  member := Member.free
  place := none
  away := []
  loading := false
  doorbell := ⟨none, 0, false, false, false⟩
  placeable := true
  physical := n % 32

/-! ### The device -/

/-- A pinned range of a compact (13 R319): its compact, the member's tile, its first segment, the
page behind each segment as State.pageOf numbers it, the backing virtual address, and the
context. -/
structure Pin where
  compact : Nat
  tile : Nat
  first : Nat
  pages : List Nat
  back : Word
  ctx : Nat
  deriving DecidableEq, Repr

/-- A tile that a member of a compact runs on (13 R317, R340): member index, whether the tile is
the twin, range, the physical pages behind its segments, the backing address, the physical pages of
its snapshot area, and the number under which its latest snapshot's hidden state is kept. -/
structure CMember where
  index : Nat
  tile : Nat
  twin : Bool
  first : Nat
  segs : Nat
  back : Word
  pages : List Nat
  snapPages : List Nat
  token : Nat
  deriving DecidableEq, Repr

/-- An entry of a schedule (13 R322). -/
structure SlotEntry where
  slot : Nat
  sh : Nat
  dh : Nat
  src : Nat
  dst : Nat
  deriving DecidableEq, Repr

/-- A beat on its way (13 R321, R330): HARTID of its source, source port, send slot, HARTID of its
destination and destination port, data, and whether it is an idle packet (13 R327). -/
structure Beat where
  src : Nat
  sh : Nat
  slot : Nat
  dst : Nat
  dh : Nat
  data : Vec
  idle : Bool
  deriving DecidableEq, Repr

/-- With TWIN, the copy of a beat that one tile of a pair has driven, which stands until that of the
other tile has come and matches (13 R340): member index, tile of the pair, slot, port and data. -/
structure BeatCopy where
  index : Nat
  twin : Bool
  slot : Nat
  port : Nat
  data : Vec
  deriving DecidableEq, Repr

/-- A signing arrival: tile, member index and hash (13 R318). -/
structure SignArrival where
  tile : Nat
  index : Nat
  hash : Word
  deriving DecidableEq, Repr

/-- A compact that is signing or signed (13 R316–R340). -/
structure Compact where
  /-- Its number on this device. -/
  num : Nat
  cid : Word32
  bdom : Nat
  ctx : Nat
  load : Bool
  snap : Bool
  twin : Bool
  snapInt : Nat
  nmem : Nat
  /-- HARTID and XDOM of every member, by index, and HARTID of every twin (13 R317). -/
  harts : List (Nat × Nat)
  twins : List Nat
  /-- Its members on this device, and whether it has others. -/
  members : List CMember
  far : Bool
  signed : Bool
  signing : List SignArrival
  /-- The control clock of the first arrival, and TMO. -/
  since : Nat
  tmo : Nat
  /-- The words of the schedule image: LEN, NENT and the entries. -/
  image : List Word
  len : Nat
  sched : List SlotEntry
  /-- Tiles that have arrived at the compact barrier, and its generation (13 R332). -/
  arrived : List Nat
  gen : BitVec 32
  /-- Dies on which a transfer phase is released and has not started, and those on which slot
  `.2` passes next. -/
  released : List Nat
  slots : List (Nat × Nat)
  beats : List Beat
  copies : List BeatCopy
  /-- Remote entries whose packet has arrived (13 R328): HARTID of the receiver, DH, SLOT. -/
  remoteIn : List (Nat × Nat × Nat)
  /-- Superstep count of the latest snapshot, and rollbacks to it and in all (13 R338, R341). -/
  snapAt : Nat
  rollbacksHere : Nat
  rollbacks : Nat
  mismatch : Bool
  deriving DecidableEq, Repr

/-- A barrier domain of a die (13 R331, R332). -/
structure Domain where
  die : Nat
  num : Nat
  tiles : List Nat
  gen : BitVec 32
  arrived : List Nat
  deriving DecidableEq, Repr

/-- How a unit acts next, or what happens around it. The agenda of the state lists these in the
order in which they happen (log 5). -/
structure EventArg where
  tile : Nat
  n₁ : Nat
  n₂ : Nat
  n₃ : Nat
  w₁ : Word
  w₂ : Word
  w₃ : Word
  vec : Vec
  flag : Bool
  bytes : List Byte
  deriving DecidableEq, Repr

def EventArg.none : EventArg := ⟨0, 0, 0, 0, 0, 0, 0, 0, false, []⟩

/-- The freedom that the ordering model leaves to a request (log 6): whether it stays under way
after it is issued, whether a miss leaves a copy in the tile and an entry in its TLB, and whether a
miss of the TLBs waits for a walker. -/
structure Choice where
  defer : Bool
  fill : Bool
  walks : Bool
  deriving DecidableEq, Repr

/-- A pending miss of a die (06 R118): context, page of 64 KiB, root of the tables, the tiles that
wait for it, and whether level 2 has shown a large page. -/
structure Miss where
  die : Nat
  ctx : Nat
  page : Nat
  root : Word
  tiles : List Nat
  large : Bool
  deriving DecidableEq, Repr

/-- The box of a tenant (14 R358): lower and upper coordinate in A, B, C and D. -/
structure TenantBox where
  tenant : Nat
  lo : Nat × Nat × Nat × Nat
  hi : Nat × Nat × Nat × Nat
  deriving DecidableEq, Repr

/-- An access by another device to this one's memory (14 R354, R355): that device, the tenant and
CTXID it carries, local address, bytes, operation (0 a read, 1 a write, 4 a compare-and-swap, 16 and
a code of 08 R191 an atomic; 2: a tile there becomes the owner of the line, 3: it writes the line
back with these data, tagged with the CTXID, and gives it up), data, the expected value, or the
level for the register space, and FPMODE.RM (log 15). -/
structure Foreign where
  device : Nat
  tenant : Nat
  ctx : Nat
  la : Nat
  size : Nat
  op : Nat
  data : Nat
  expect : Nat
  rm : BitVec 3
  deriving DecidableEq, Repr

/-- What happens next (log 5). -/
inductive Move where
  /-- A unit of a tile has its turn. -/
  | unit (tile : Nat) (u : UnitId)
  /-- A step of another agent, at a tile or for the whole device. -/
  | event (i : Instr) (a : EventArg)
  /-- The clocks advance: control clock periods and nanoseconds of GTC. -/
  | time (cc ns : Nat)
  /-- The choice for the requests that follow. -/
  | choose (c : Choice)
  /-- A tile fetches the instruction word at a physical address ahead of its issue. -/
  | prefetch (tile : Nat) (va : Word)
  /-- A tile cache drops a line that it does not own, or writes one back (06 R122). -/
  | evict (tile : Nat) (line : Nat)
  /-- A TLB drops an entry. -/
  | dropTlb (tile : Nat) (page : Nat)
  /-- A slice, by die and number, drops a cached routine image (08 R210). -/
  | dropImage (die slice ctx id : Nat)
  /-- A slice writes a dirty sector back to its stack, which ends its owner tag. -/
  | clean (sector : Nat)
  /-- A walker or a fetch reads a sector that an access waits for. -/
  | examine (sector : Nat)
  /-- An error arises in a sector of memory or of a scratchpad, with `ue` an uncorrectable one
  (16 R426). -/
  | upset (sector : Nat) (ue : Bool)
  /-- An uncorrectable error arises in a line of a tile cache (16 R426). -/
  | upsetLine (tile : Nat) (line : Nat)
  /-- An uncorrectable error arises in a line of the application complex's shared cache
  (17 R439). -/
  | upsetApp (line : Nat)
  /-- The shared cache of the application complex drops a line, or writes one back (17 R436). -/
  | evictApp (line : Nat)
  /-- The management controller reads the control register of the complex at an offset, or writes
  it (17 R437). -/
  | mgmtReg (off : Nat) (v : Option Word)
  /-- An error arises in a matrix-side item of a tile (10 R263). -/
  | upsetMatrix (tile item : Nat) (ue : Bool)
  /-- The management firmware gives a tenant its box, and a port its bitmap of tenants (14 R358). -/
  | tenantBox (b : TenantBox)
  | portTenants (port : Nat) (tenants : BitVec 64)
  /-- An access of another device is performed at its home here. -/
  | foreign (f : Foreign)
  /-- A hart of the domain gang on another device enqueues a task for the hart of a tile, or of a
  save area: routine, argument line and completion word (15 R393). -/
  | foreignTask (n : Nat) (routine line cword : Word)
  deriving DecidableEq, Repr

/-! ### Launches -/

/-- The states of a launch (15 R375). -/
inductive LaunchState where
  | queued | running | done | refused | killed
  deriving DecidableEq, Repr

/-- A launch (15 R372–R390): identifier, context, record, effective priority, the window line
that triggered it, its mailbox, the graph node it is, and its progress. -/
structure Launch where
  lid : Nat
  ctx : Nat
  words : List Word
  prio : Nat
  line : Option Nat
  mailbox : Option Nat
  node : Option (Nat × Nat)
  state : LaunchState
  started : Nat
  ended : Nat
  /-- Control of stalls: GTC of the latest start or end of one of its gangs, and whether GRIDSTALL
  has been raised since (15 R386). -/
  since : Nat
  stalled : Bool
  x14 : Nat
  deriving DecidableEq, Repr

/-- A launch whose record is being parsed (15 R374, R375, R391): its LID, context, PMAX, the window
line or the mailbox that has triggered it, and the copy of the record. -/
structure Parsing where
  lid : Nat
  ctx : Nat
  prio : Nat
  line : Option Nat
  mailbox : Option Nat
  words : List Word
  deriving DecidableEq, Repr

/-- A word of a pinned range that the dispatcher reads for a launch: LID, context, physical address,
and what the barrier of the compact has served it with (13 R335, 15 R389). -/
structure DispRead where
  lid : Nat
  ctx : Nat
  pa : Nat
  value : HeldValue
  deriving DecidableEq, Repr

/-- The states of a gang (15 R381, R387, 16 R412, 20 R455). -/
inductive GangState where
  | running
  /-- Pre-emption has been requested and not every hart is saved (16 R412). -/
  | stopping
  /-- Every hart is saved; held until released (20 R455). -/
  | held
  /-- Saved and waiting in the queue for a place (16 R412). -/
  | requeued
  /-- A domain gang that holds a placement and has not started (15 R387). -/
  | holding
  deriving DecidableEq, Repr

/-- A saved hart (16 R412, R414): its launch HARTID, the number under which its state is kept
(2,048 or more, so that no tile has it), its slot in the save pool, and the tile that it left. -/
structure SavedHart where
  launch : Nat
  store : Nat
  slot : Nat
  tile : Nat
  deriving DecidableEq, Repr

/-- A save area that has been written (16 R414): the number under which the state behind its
implementation-defined blocks is kept, the physical addresses of its pages of 64 KiB, the words of
its header, and whether it has been loaded, so that nothing lands in it any more (16 R415). -/
structure SaveArea where
  store : Nat
  pages : List Nat
  header : List Word
  loaded : Bool
  deriving DecidableEq, Repr

/-- A gang that has been placed once. -/
structure Gang where
  lid : Nat
  idx : Nat
  state : GangState
  die : Nat
  region : Nat
  tiles : List Nat
  /-- Harts that have executed GDONE (15 R379). -/
  gone : List Nat
  domains : BitVec 64
  startNs : Nat
  stamp : Nat
  saved : List SavedHart
  /-- The control clock of its latest stop (11 R285). -/
  stopped : Nat
  /-- The gang comes first in its priority (15 R382, rule 3). -/
  front : Bool
  hold : Bool
  /-- Of a saved gang: the numbers of its barrier domains, and the domains that it had defined
  (13 R344). -/
  kept : BitVec 64
  doms : List Domain
  deriving DecidableEq, Repr

/-- An instance of a graph (15 R389, R390). -/
structure GraphInst where
  lid : Nat
  ctx : Nat
  handle : Word
  number : Nat
  header : Word
  reentrant : Bool
  nodes : List (List Word)
  edges : List (List Nat)
  /-- The device lists of those nodes that are domain gangs (15 R387). -/
  dlists : List (List Nat)
  counts : List Nat
  done : List Nat
  started : Bool
  deriving DecidableEq, Repr

/-- A mailbox slot (15 R391). -/
structure Mailbox where
  slot : Nat
  line : Nat
  ctx : Nat
  level : Nat
  words : List Word
  va : Word
  owed : Nat
  busy : Option Nat
  deriving DecidableEq, Repr

/-! ### Errors, links, host side, application complex, management -/

/-- A record of an error bank (16 R423): the three words. -/
structure BankRecord where
  bank : Nat
  w0 : Word
  w1 : Word
  w2 : Word
  deriving DecidableEq, Repr

/-- The reclaim of a BREROOT (12 R308): tile, context and level of its command, the tables it
translates with, the header, the extents still to be appended, and the condition, the line and the
place by which its access is parked (11 R283). -/
structure Reclaim where
  tile : Nat
  ctx : Nat
  level : Nat
  trbase : Word
  header : Word
  /-- SEQ of its BREROOT. -/
  seq : Nat
  extents : List (Word × Nat)
  parked : Option (Parked × Nat × Nat)
  deriving DecidableEq, Repr

/-- A verified routine image cached at a slice, named by die and number (08 R210). -/
structure EtchImage where
  home : Nat × Nat
  ctx : Nat
  id : Nat
  version : Nat
  words : List Word32
  deriving DecidableEq, Repr

/-- A gang that has been the blocked head of a ready pool (15 R382–R385): its age, the GTC of its
last step while it is the head, and its target region and reserved start once they are fixed. -/
structure HeadState where
  lid : Nat
  idx : Nat
  age : Nat
  since : Nat
  fixed : Option (Nat × Option Nat)
  deriving DecidableEq, Repr

/-- The placements of a context at a priority on a die (15 R382, rule 3). -/
structure PlacedCount where
  die : Nat
  prio : Nat
  ctx : Nat
  count : Nat
  deriving DecidableEq, Repr

/-- The coordination of a domain gang (15 R387): its gang, the member devices, those that have
answered HELD, whether it has been started, and the members whose gang has ended. -/
structure DomainGang where
  lid : Nat
  idx : Nat
  members : List Nat
  held : List Nat
  started : Bool
  ended : List Nat
  /-- A HOLD stands here, this device holds a placement since this GTC, and whether this device
  coordinates. -/
  wanted : Bool
  holdSince : Nat
  coordinator : Bool
  /-- START has come to a member whose tiles are not ready yet. -/
  go : Bool
  deriving DecidableEq, Repr

/-- Packet classes (14 R362). -/
inductive PacketClass where
  | req | fwd | rsp | ctl | bsp
  deriving DecidableEq, Repr

/-- A packet that waits at the egress of a Dendan port (14 R364): its class, tenant, input port,
whether it is a request that can be refused, the request it belongs to, its source and target
devices, its age counter and its arrival; and the path that its source has given it (14 R361): the
intermediate device still before it, whether the path is a Valiant one, the dimensions that detours
leave to the last (14 R367), the dimension that it travels in, and whether it uses the second
virtual channel of its class. In the receive buffer of its input port it takes `rows` rows of
virtual channel `inVc` (14 R366). -/
structure Packet where
  cls : PacketClass
  tenant : Nat
  input : Nat
  request : Bool
  tile : Nat
  req : Nat
  source : Nat
  target : Nat
  mid : Option Nat
  valiant : Bool
  late : List Nat
  dim : Nat
  one : Bool
  inVc : Nat
  rows : Nat
  age : Nat
  waited : Nat
  arrived : Nat
  deriving DecidableEq, Repr

/-- A Dendan port (14 R358, R364–R367, 01 R19). -/
structure Port where
  lanes : Nat
  retraining : Bool
  rows : Nat
  stage : Nat
  up : Bool
  tenants : BitVec 64
  waiting : List Packet
  /-- For each class by its rank, the input that was served last (14 R364). -/
  last : Vector Nat 5
  deriving DecidableEq, Repr

/-- An on-die link (14 R369): bank number, configured slots, permits at the sender, free slots at
the receiver. -/
structure Link where
  bank : Nat
  slots : Nat
  permits : Nat
  free : Nat
  deriving DecidableEq, Repr

/-- A bias flip in progress (17 R433, R434): page, target, whether a command started it, and the
lines whose recall or snoop is outstanding. -/
structure Flip where
  page : Nat
  toHost : Bool
  command : Bool
  lines : List Nat
  deriving DecidableEq, Repr

/-- A core of the application complex (17 R436, R438, R439): DCTX, whether it runs with V = 1,
whether its latest access raised an access fault, the value of its latest load, atomic or SC, with
its upper half for one of 16 bytes, and the context of the latest local interrupt 24. -/
structure AppCore where
  dctx : Word
  virt : Bool
  fault : Bool
  data : Word
  upper : Word
  interrupt : Option Nat
  deriving DecidableEq, Repr

/-- The firmware of one unit (17 R443): images A and B, the active one, whether the inactive one
has been verified, the GTC of an activation that has not reported ready, and whether the active one
has reported ready. -/
structure Firmware where
  imageA : List Byte
  imageB : List Byte
  activeB : Bool
  verified : Bool
  pending : Option Nat
  ready : Bool
  deriving DecidableEq, Repr

/-- The management controller's view (17 R440–R446). -/
structure Management where
  /-- Units 0 to 3 are the dispatchers, 4 the management firmware, 5 the application complex. -/
  firmware : Vector Firmware 6
  /-- The latest values of the sensors, by number. -/
  sensors : List (Nat × Nat)
  powerCap : Nat
  throttled : Vector Bool 4
  powered : Vector Bool 4
  /-- Bring-up has been done (17 R445). -/
  up : Bool
  /-- Dies whose bring-up failed. -/
  failedDies : List Nat
  /-- What the port has answered, newest first: the result of an update, a sensor, a measurement. -/
  reports : List Nat
  deriving DecidableEq, Repr

/-- Sparing and repair (01 R14, 16 R426, 17 R444). -/
structure Service where
  /-- HBM rows retired: frames of 64 KiB. -/
  retired : List Nat
  waysOff : List (Nat × Nat)
  /-- HBM channels spared, and the next line of a copy in progress. -/
  spared : List Nat
  sparing : Option (Nat × Nat)
  /-- Clusters whose spare tile is in use. -/
  sparesUsed : List Nat
  deriving DecidableEq, Repr

/-! ### The state -/

/-- Why the machine stops. -/
inductive Fault where
  /-- The step raises it when the agenda names a tile that the device does not have. Safe: no
  rule gives such a tile a behaviour. -/
  | noSuchTile
  deriving DecidableEq, Repr

/-- Why an instruction has no meaning. -/
inductive Refusal where
  /-- The dispatch raises it for a row of the opcode table that has no meaning yet. Safe. -/
  | notModelled (mnemonic : String)
  deriving DecidableEq, Repr

/-- The whole device. `tile` is the tile in focus, number `cur`; the other tiles that differ from
reset stand in `others`, by rising number. -/
structure State where
  cur : Nat
  tile : Tile
  others : List (Nat × Tile)
  /-- The unit that executes. -/
  who : UnitId
  /-- The word that it fetched last. -/
  ir : Word32
  /-- The instruction under way has taken an exception (log 5). -/
  exc : Bool
  /-- What a step of another agent acts on (log 5). -/
  arg : EventArg
  agenda : List Move
  choice : Choice
  /-- A counter that numbers requests and free values (log 5). -/
  fresh : Nat
  cc : Nat
  gtc : Nat
  device : Nat
  /-- Devices of the domain that are present; empty when the device is in no domain. -/
  peers : List Nat
  mem : Memory
  tags : List (Nat × Nat)
  injected : List (Nat × Bool)
  /-- Lost sectors, with the context that owned the lost data (16 R426). -/
  poisoned : List (Nat × Nat)
  service : Service
  slicemap : Vector (Vector (BitVec 6) 64) 4
  bindings : List (Nat × Word)
  lstat : List (Nat × Word)
  contexts : List (Nat × List Word)
  killed : List Nat
  /-- Contexts that another device of the domain has killed there: device and CTXID (15 R373). -/
  killedAt : List (Nat × Nat)
  /-- Launches that are being parsed (15 R375). -/
  parsing : List Parsing
  dispReads : List DispRead
  banks : List BankRecord
  resetvec : Vector Word 4
  preq : Word
  clusterTlb : List (Nat × TlbEntry)
  /-- Pending misses in the order of their arrival (06 R118). -/
  misses : List Miss
  images : List EtchImage
  /-- The hart that each copy and collective engine has last begun a command of: engine and its
  cluster or die (11 R267). -/
  turns : List ((Nat × Nat) × Nat)
  reclaims : List Reclaim
  areas : List SaveArea
  pins : List Pin
  compacts : List Compact
  nextCompact : Nat
  domains : List Domain
  nextLid : Nat
  stamp : Nat
  launches : List Launch
  gangs : List Gang
  heads : Vector (List HeadState) 4
  placed : List PlacedCount
  domainGangs : List DomainGang
  graphs : List GraphInst
  /-- The next instance number of a handle word of a context (15 R390). -/
  handles : List (Nat × Word × Nat)
  mailboxes : List Mailbox
  ports : Vector Port 8
  links : List Link
  boxes : List TenantBox
  hostBias : List Nat
  snoop : List Nat
  /-- Lines of the snoop filter of which the host has answered a snoop by a read since it last read
  them: its copy is clean (17 R432). -/
  snoopClean : List Nat
  /-- Lines of this device that a tile of another device owns: line and device (13 R336, 14
  R363). -/
  farOwned : List (Nat × Nat)
  /-- Entries of error reports whose line is held up: context, KIND, and words 1 and 3 (16 R411). -/
  reportsHeld : List (Nat × Nat × Word × Word)
  /-- The shared cache of the application complex (17 R436). -/
  appCache : List CacheLine
  flips : List Flip
  biascmd : Word
  biasErr : Bool
  biasDone : BitVec 32
  msix : Nat
  /-- What the host's latest read returned: address and value. -/
  hostData : Option (Nat × Nat)
  /-- The host's latest access was answered as an Unsupported Request (17 R430). -/
  hostError : Bool
  cores : Vector AppCore 32
  /-- Reservations of LR: core and line (17 R436). -/
  reservations : List (Nat × Nat)
  appRegs : List (Nat × Word)
  mgmt : Management
  deriving DecidableEq, Repr

/-- A Dendan port at reset: eight lanes, all rows, no tenant (log 10). -/
def Port.reset : Port := ⟨8, false, 256, 0, true, 0, [], Vector.replicate 5 0⟩

/-- Firmware before any update: empty images, A active, ready not yet reported (log 12). -/
def Firmware.reset : Firmware := ⟨[], [], false, false, none, false⟩

def Management.reset : Management where
  firmware := Vector.replicate 6 Firmware.reset
  sensors := []
  powerCap := 2400
  throttled := Vector.replicate 4 false
  powered := Vector.replicate 4 true
  up := false
  failedDies := []
  reports := []

/-- The device when reset is released (01 R30). -/
def State.reset : State where
  cur := 0
  tile := Tile.reset 0
  others := []
  who := .eh
  ir := 0
  exc := false
  arg := EventArg.none
  agenda := []
  choice := ⟨false, false, false⟩
  fresh := 0
  cc := 0
  gtc := 0
  device := 0
  peers := []
  mem := []
  tags := []
  injected := []
  poisoned := []
  service := ⟨[], [], [], none, []⟩
  slicemap := Vector.replicate 4 (Vector.ofFn fun i => BitVec.ofNat 6 i.val)
  bindings := []
  lstat := []
  contexts := []
  killed := []
  killedAt := []
  parsing := []
  dispReads := []
  banks := []
  resetvec := Vector.ofFn fun i => resetVector i.val
  preq := 0
  clusterTlb := []
  misses := []
  images := []
  turns := []
  reclaims := []
  areas := []
  pins := []
  compacts := []
  nextCompact := 0
  domains := []
  nextLid := 1
  stamp := 0
  launches := []
  gangs := []
  heads := Vector.replicate 4 []
  placed := []
  domainGangs := []
  graphs := []
  handles := []
  mailboxes := []
  ports := Vector.replicate 8 Port.reset
  links := []
  boxes := []
  hostBias := []
  snoop := []
  snoopClean := []
  farOwned := []
  reportsHeld := []
  appCache := []
  flips := []
  biascmd := 0
  biasErr := false
  biasDone := 0
  msix := 0
  hostData := none
  hostError := false
  cores := Vector.replicate 32 ⟨0, false, false, 0, 0, none⟩
  reservations := []
  appRegs := []
  mgmt := Management.reset

end Sys2Proof.Machine
end

