-- ==== Sys2Proof/Config.lean ====
section
/-! DEFINITION. What the spec leaves open: constants without a body, so that nothing can be proved
of their values. -/
namespace Sys2Proof.Config

/-- A value that the spec does not state, numbered by the counter `fresh` of the state (log 14). -/
opaque freeWord : Nat → Word

/-- A vector value that the spec does not state (log 14). -/
opaque freeVec : Nat → Vec

/-- What another device of the domain answers: by the number of the request and the physical
address (log 15). -/
opaque remoteWord : Nat → Nat → Word

/-- The draw behind the intermediate device of a Valiant path (14 R360, log 14). -/
opaque intermediate : Nat → Nat

/-- What a block of a save area holds whose layout the implementation defines, when software has
written it (log 16). -/
opaque unpredictableTile : Nat → Machine.Tile

/-- The hash of a signing member over descriptor, member table and schedule (13 R318, log 17). -/
opaque signHash : List Word → Word

/-- The hash of a copy that leaves a pair of twins (13 R340, log 17). -/
opaque pairHash : List Nat → Word

/-- The check of the RSA-4096 signature that an image carries, by the key fused at manufacture
(17 R443, log 23). -/
opaque signatureOk : List Byte → Bool

/-- The boot ROM, and the fuse configuration with the spare-tile map and the retired-frame list, as
they are measured (17 R441, log 23). -/
opaque bootRom : List Byte
opaque serviceImage : List Nat → List Nat → List Byte

end Sys2Proof.Config
end

