-- ==== Sys2Proof/Machine/Ops.lean ====
section
/-! DEFINITION. The named operations over tiles, registers and positions, the entry into traps
and the return from them, and the checks that every instruction passes at issue. -/
namespace Sys2Proof.Machine

/-! ### Tiles -/

/-- A tile of the device; a tile that is not listed is as at reset. -/
def State.getTile (s : State) (n : Nat) : Tile :=
  if n = s.cur then s.tile
  else match s.others.find? (fun p => p.1 == n) with
    | some p => p.2
    | none => Tile.reset n

/-- The list of tiles with tile `n` replaced, numbers rising. -/
def putTile (l : List (Nat × Tile)) (n : Nat) (t : Tile) : List (Nat × Tile) :=
  match l with
  | [] => [(n, t)]
  | p :: rest =>
    if p.1 = n then (n, t) :: rest
    else if n < p.1 then (n, t) :: p :: rest
    else p :: putTile rest n t

def State.setTile (s : State) (n : Nat) (t : Tile) : State :=
  if n = s.cur then { s with tile := t } else { s with others := putTile s.others n t }

def State.modTile (s : State) (n : Nat) (f : Tile → Tile) : State := s.setTile n (f (s.getTile n))

/-- The tile in focus changed. -/
def State.onTile (s : State) (f : Tile → Tile) : State := { s with tile := f s.tile }

/-- Tile `n` brought into focus. -/
def State.focus (s : State) (n : Nat) : State :=
  if n = s.cur then s
  else
    { s with
      cur := n
      tile := s.getTile n
      others := putTile (s.others.filter fun p => p.1 != n) s.cur s.tile }

/-- `f` performed with tile `n` in focus; the focus then returns. -/
def State.atTile (s : State) (n : Nat) (f : State → State) : State :=
  ((f (s.focus n)).focus s.cur)

/-- The tiles that differ from reset, the one in focus among them. -/
def State.tiles (s : State) : List (Nat × Tile) :=
  (s.cur, s.tile) :: s.others.filter (fun p => p.1 != s.cur)

/-- Every listed tile changed. -/
def State.mapTiles (s : State) (f : Nat → Tile → Tile) : State :=
  { s with tile := f s.cur s.tile, others := s.others.map fun p => (p.1, f p.1 p.2) }

/-- The die of a tile (01 R22). -/
def dieOf (n : Nat) : Nat := n / 512
/-- The cluster of a tile, counted over the device. -/
def clusterOf (n : Nat) : Nat := n / 32
/-- The row of a tile, counted over the device. -/
def rowOf (n : Nat) : Nat := n / 8

/-! ### Lists as queues and sets -/

/-- Element `i` of a list replaced. -/
def setNth {α : Type} : List α → Nat → α → List α
  | [], _, _ => []
  | _ :: xs, 0, y => y :: xs
  | x :: xs, n + 1, y => x :: setNth xs n y

/-- An address put into a rising list. -/
def insertNat (l : List Nat) (n : Nat) : List Nat :=
  match l with
  | [] => [n]
  | m :: rest => if n = m then l else if n < m then n :: l else m :: insertNat rest n

def removeNat (l : List Nat) (n : Nat) : List Nat := l.filter (· != n)

/-- An element put into a list before the first one that it does not follow. -/
def insertBy {α : Type} (le : α → α → Bool) (x : α) (l : List α) : List α :=
  match l with
  | [] => [x]
  | y :: rest => if le x y then x :: y :: rest else y :: insertBy le x rest

/-- A list in order; equal elements keep theirs. -/
def sortBy {α : Type} (le : α → α → Bool) (l : List α) : List α :=
  match l with
  | [] => []
  | x :: rest => insertBy le x (sortBy le rest)

/-- The value of a key in a list of pairs. -/
def lookupD {α : Type} (l : List (Nat × α)) (k : Nat) (d : α) : α :=
  match l.find? (fun p => p.1 == k) with
  | some p => p.2
  | none => d

/-- A key set in a list of pairs with rising keys. -/
def putKey {α : Type} (l : List (Nat × α)) (k : Nat) (v : α) : List (Nat × α) :=
  match l with
  | [] => [(k, v)]
  | p :: rest =>
    if p.1 = k then (k, v) :: rest
    else if k < p.1 then (k, v) :: p :: rest
    else p :: putKey rest k v

/-! ### Vectors by number -/

/-- Element `i`, or the last resort outside the vector. -/
def vget {α : Type} {n : Nat} (v : Vector α n) (i : Nat) (d : α) : α := v.toList.getD i d

def vset {α : Type} {n : Nat} (v : Vector α n) (i : Nat) (x : α) : Vector α n :=
  v.setIfInBounds i x

def vmap {α β : Type} {n : Nat} (f : α → β) (v : Vector α n) : Vector β n :=
  Vector.ofFn fun i => f v[i]

/-! ### Register files (02 R45) -/

namespace RegFile
variable {n w : Nat}

/-- The value at the last commit. -/
def get (f : RegFile n w) (r : Nat) : BitVec w := vget f.base r 0

/-- The value that a read at position `p` receives (02 R45). -/
def read (f : RegFile n w) (r p : Nat) : BitVec w :=
  match f.pend.find? (fun e => e.reg == r && decide (e.at_ ≤ p)) with
  | some e => e.val
  | none => f.get r

/-- The value of a read by the execute hart while a replay runs: its own later writes first. -/
def readLate (f : RegFile n w) (r p : Nat) : BitVec w :=
  match f.late.find? (fun e => e.1 == r) with
  | some e => e.2
  | none => f.read r p

/-- The latest write of `r` is not visible at position `p` (02 R47). -/
def short (f : RegFile n w) (r p : Nat) : Bool :=
  match f.pend.find? (fun e => e.reg == r) with
  | some e => decide (p < e.at_)
  | none => false

/-- A write that every later instruction sees. -/
def commit (f : RegFile n w) (r : Nat) (v : BitVec w) : RegFile n w :=
  { f with base := vset f.base r v, pend := f.pend.filter fun e => e.reg != r }

/-- The writes to `r` that are newer than the latest one visible at position `p`, among those of
every other register. -/
def newer (r p : Nat) : List (Pend w) → List (Pend w)
  | [] => []
  | e :: rest =>
    if e.reg = r then
      (if e.at_ ≤ p then rest.filter (fun e => e.reg != r) else e :: newer r p rest)
    else e :: newer r p rest

/-- A write of a fixed-latency result: visible from position `at_`, and at once when the next
instruction stands there or later. `cur` is the position of the writer; what is visible there is
kept as committed. -/
def write (f : RegFile n w) (r : Nat) (v : BitVec w) (cur at_ next : Nat) (replay : Bool) :
    RegFile n w :=
  if at_ ≤ next then f.commit r v
  else
    { f with
      base := vset f.base r (f.read r cur)
      pend := ⟨r, v, at_, replay⟩ :: newer r cur f.pend }

/-- A write by the execute hart that a running replay does not see (04 R77). -/
def writeLate (f : RegFile n w) (r : Nat) (v : BitVec w) : RegFile n w :=
  { f with late := (r, v) :: f.late }

/-- Every write becomes visible: a boundary (02 R49). -/
def settle (f : RegFile n w) : RegFile n w :=
  let base := f.pend.foldr (fun e b => vset b e.reg e.val) f.base
  { base := f.late.foldr (fun e b => vset b e.1 e.2) base, pend := [], late := [] }

/-- The writes of an ended replay, and those that waited for its end, become visible (02 R50). -/
def endReplay (f : RegFile n w) : RegFile n w :=
  { f with
    pend := (f.late.map fun e => ⟨e.1, e.2, 0, false⟩) ++
      f.pend.map (fun e => if e.replay then { e with at_ := 0, replay := false } else e)
    late := [] }

/-- Writes that all are visible at position `p` are kept as committed. -/
def prune (f : RegFile n w) (p : Nat) : RegFile n w :=
  if f.late = [] && f.pend.all (fun e => decide (e.at_ ≤ p)) then f.settle else f

end RegFile

/-! ### The units -/

def Tile.core (t : Tile) : UnitId → Core
  | .eh | .vs => t.eh
  | .as => t.acSeq.core
  | .ss => t.stSeq.core

def Tile.setCore (t : Tile) (u : UnitId) (c : Core) : Tile :=
  match u with
  | .eh | .vs => { t with eh := c }
  | .as => { t with acSeq := { t.acSeq with core := c } }
  | .ss => { t with stSeq := { t.stSeq with core := c } }

/-- The core of the unit that executes. -/
def State.core (s : State) : Core := s.tile.core s.who

def State.setCore (s : State) (c : Core) : State := s.onTile (·.setCore s.who c)

/-- The program counter of the unit that executes. -/
def State.pc (s : State) : Word := s.core.pc

/-- The number that names the unit in a report (02 R40): 0 EH, 1 AS, 2 SS. -/
def UnitId.source : UnitId → Nat
  | .eh | .vs => 0
  | .as => 1
  | .ss => 2

/-- The issue position of the instruction under way (02 R44, R50). -/
def State.pos (s : State) : Nat :=
  match s.who, s.tile.frame with
  | .vs, some f => f.pos
  | .vs, none | .eh, _ | .as, _ | .ss, _ => s.core.pos

/-- INBCTL.INH (11 R272): a user-level handler runs on the shadow bank. -/
def Tile.inh (t : Tile) : Bool := bitAt t.cr.inbctl 4

/-- The register of the file of 40 that a field of the unit names (02 R37). -/
def State.xIndex (s : State) (r : Nat) : Nat :=
  if s.who = .eh ∧ s.tile.inh ∧ 24 ≤ r then r + 8 else r

/-- X[r], read by the instruction under way (02 R37, R45). -/
def State.readX (s : State) (r : XReg) : Word :=
  if r = 0 then 0 else s.core.x.read (s.xIndex r.toNat) s.pos

/-- The stall code's wait W (02 R44). -/
def stallWait (c : StallCode) : Nat :=
  match c.toNat with
  | 0 => 0 | 1 => 1 | 2 => 2 | 3 => 3 | 4 => 4 | 5 => 6 | 6 => 8 | _ => 12

/-- X[r] := v with fixed latency L and the word's stall code; x0 discards (02 R37, R45). -/
def State.writeX (s : State) (r : XReg) (v : Word) (lat : Nat) (st : StallCode) : State :=
  if r = 0 then s
  else
    let c := s.core
    s.setCore { c with
      x := c.x.write (s.xIndex r.toNat) v s.pos (s.pos + lat) (s.pos + 1 + stallWait st) false }

/-- X[r] := v as a scoreboarded result (02 R45). -/
def State.commitX (s : State) (r : XReg) (v : Word) : State :=
  if r = 0 then s
  else
    let c := s.core
    s.setCore { c with x := c.x.commit (s.xIndex r.toNat) v }

/-- Mask register n: m0 reads all ones (02 R37). -/
def State.readM (s : State) (r : MReg) : Word :=
  if r = 0 then BitVec.allOnes 64 else s.tile.m.read r.toNat s.pos

def State.writeM (s : State) (r : MReg) (v : Word) (lat : Nat) (st : StallCode) : State :=
  if r = 0 then s
  else s.onTile fun t => { t with
    m := t.m.write r.toNat v s.pos (s.pos + lat) (s.pos + 1 + stallWait st) (s.who == .vs) }

/-- The value of a v register that is not bound. -/
def State.readVReg (s : State) (r : Nat) : Vec :=
  if s.who = .vs then s.tile.v.read r s.pos else s.tile.v.readLate r s.pos

/-- A v register that is not bound, written with fixed latency. -/
def State.writeVReg (s : State) (r : Nat) (v : Vec) (lat : Nat) (st : StallCode) : State :=
  s.onTile fun t => { t with
    v := t.v.write r v s.pos (s.pos + lat) (s.pos + 1 + stallWait st) (s.who == .vs) }

/-- A v register written by a scoreboarded result of the execute hart. While a replay runs its
words do not see the write (04 R77). -/
def Tile.commitV (t : Tile) (replay : Bool) (r : Nat) (v : Vec) : Tile :=
  if t.frame.isSome && !replay then { t with v := t.v.writeLate r v }
  else { t with v := t.v.commit r v }

/-! ### Positions, waiting, completing -/

/-- Every write of the unit becomes visible (02 R49). -/
def State.settle (s : State) : State :=
  let s := s.setCore { s.core with x := s.core.x.settle }
  match s.who with
  | .eh => s.onTile fun t => { t with v := t.v.settle, m := t.m.settle }
  | .vs | .as | .ss => s

/-- The replay takes its next word, or ends (04 R76). -/
def Tile.advanceFrame (t : Tile) (w : Nat) : Tile :=
  match t.frame with
  | none => t
  | some f =>
    let pos := f.pos + 1 + w
    let last := f.words.length ≤ f.at_ + 1
    if last ∧ (slice f.frame 10 8).toNat ≤ f.iter then
      { t with frame := none, v := t.v.endReplay, m := t.m.endReplay }
    else if last then { t with frame := some { f with iter := f.iter + 1, at_ := 0, pos := pos } }
    else { t with frame := some { f with at_ := f.at_ + 1, pos := pos } }

/-- The instruction under way completes and the unit goes on at `pc`; its issue position rises by
1 + `w` (02 R44). A replayed word advances the replay instead (02 R50). -/
def State.goTo (s : State) (pc : Word) (w : Nat) : State :=
  let s := { s with tile := { s.tile with stuckSince := none } }
  match s.who with
  | .vs => s.onTile fun t => { t.advanceFrame w with eh := { t.eh with wait := 0 } }
  | .eh | .as | .ss =>
    let c := s.core
    let p := c.pos + 1 + w
    s.setCore { c with pc := pc, pos := p, wait := 0, x := c.x.prune p, begun := none }

/-- The instruction completes and the next word follows. -/
def State.advance (s : State) (st : StallCode) : State := s.goTo (s.pc + 4) (stallWait st)

/-- A serializing instruction completes: P rises by 1 (02 R48). -/
def State.advance1 (s : State) : State := s.goTo (s.pc + 4) 0

/-- The three units of the tile wait on one another's queues (04 R86). -/
def Tile.stuck (t : Tile) : Bool :=
  decide (1 ≤ t.eh.wait ∧ t.eh.wait ≤ 4) && decide (1 ≤ t.acSeq.core.wait) &&
    decide (1 ≤ t.stSeq.core.wait) && t.run == .running

/-- The control clock since which the units of the tile have been stuck. -/
def State.watch (s : State) : State :=
  s.onTile fun t => { t with
    stuckSince := if t.stuck then some (t.stuckSince.getD s.cc) else none }

/-- The instruction waits at issue in wait state `k`; P and pc stay (02 R44, 04 R86). A replayed
word that waits makes the execute hart wait in the same state. Which state the hart is in while its
integer pipeline and its replay wait in two states is not stated: the model keeps one, that of the
latest turn (DESIGN CHOICE, log 70). -/
def State.stay (s : State) (k : Nat) : State := (s.setCore { s.core with wait := k }).watch

/-- The flags of an instruction are added to FPFLAGS (05 R99, R102). -/
def State.orFlags (s : State) (f : FpFlags) : State :=
  s.onTile fun t => { t with cr := { t.cr with fpflags := t.cr.fpflags ||| f.setWidth 64 } }

/-- FPMODE as rounding reads it (05 R98). -/
def Tile.fpMode (t : Tile) : FpMode := ⟨RoundMode.ofCode (slice t.cr.fpmode 0 3), bitAt t.cr.fpmode 3⟩

/-! ### Levels and traps (16 R398, R400, R404–R406) -/

/-- STATUS.PL (16 R398). -/
def Tile.level (t : Tile) : Nat := (slice t.cr.status 2 2).toNat

/-- The context that the hart carries (16 R398). -/
def Tile.ctx (t : Tile) : Nat := (slice t.cr.ctxid 0 12).toNat

/-- FTVEC as it reads: the RESETVEC of the die until FIRM first writes it (16 R457). -/
def State.ftvec (s : State) : Word :=
  match s.tile.cr.ftvec with
  | some v => v
  | none => vget s.resetvec (dieOf s.cur) 0 &&& ~~~3#64

/-- A replay that a trap cuts short is recorded in FRAMEPOS (04 R78, R79). -/
def Tile.cutFrame (t : Tile) : Tile :=
  match t.frame with
  | none => t
  | some f =>
    { t with
      frame := none
      v := t.v.endReplay
      m := t.m.endReplay
      cr := { t.cr with
        framepos := 1#1 ++ 0#3 ++ BitVec.ofNat 8 f.iter ++ BitVec.ofNat 4 f.at_ ++
          slice f.addr 2 46 ++ 0#2 } }

/-- The trap causes and interrupt codes (16 R404). -/
inductive Cause where
  | illop | priv | misalign | fetchfault | loadfault | storefault | dataerr | stallshort
  | shapeerr | gangerr | feorder | slotviol | compactwr | csignfail | qdeadlk | engfault
  | etfault | burinfault | chanfault | ecall | ebrk | frameerr
  /-- No trap: the translation of the address that TVAL holds waits for a walk (06 R118). -/
  | waits
  deriving DecidableEq, Repr

/-- The code of a cause (16 R404). -/
def Cause.code : Cause → Nat
  | .illop => 0x01 | .priv => 0x02 | .misalign => 0x03 | .fetchfault => 0x04
  | .loadfault => 0x05 | .storefault => 0x06 | .dataerr => 0x07 | .stallshort => 0x08
  | .shapeerr => 0x09 | .gangerr => 0x0A | .feorder => 0x0B | .slotviol => 0x0C
  | .compactwr => 0x0D | .csignfail => 0x0E | .qdeadlk => 0x0F | .engfault => 0x10
  | .etfault => 0x11 | .burinfault => 0x12 | .chanfault => 0x13 | .ecall => 0x14
  | .ebrk => 0x15 | .frameerr => 0x16 | .waits => 0

/-- A trap that a check found: its cause, TVAL, and MFINFO where the report writes it. -/
structure Trap where
  cause : Cause
  tval : Word
  mfinfo : Option Word := none
  deriving DecidableEq, Repr

/-- The level at which an exception with this code is taken (16 R405): FIRM from FIRM, and
otherwise SYS where TDELEG delegates the cause. -/
def Tile.trapLevel (t : Tile) (code : Nat) : Nat :=
  if t.level = 2 then 2 else if bitAt t.cr.tdeleg code then 1 else 2

/-- Entry into a handler at SYS or FIRM (16 R405). The hart's registers settle, a running replay
is recorded, and the saved registers, STATUS and pc change. -/
def State.enterTrap (s : State) (int : Bool) (code : Nat) (tval : Word) (epc : Word) (level : Nat) :
    State :=
  let fv := s.ftvec
  let t := s.tile.cutFrame
  let t := { t with v := t.v.settle, m := t.m.settle }
  let c := { t.eh with x := t.eh.x.settle, wait := 0, begun := none }
  let st := t.cr.status
  let cause : Word := (if int then 1#1 else 0#1) ++ BitVec.ofNat 63 code
  let epc := epc &&& ~~~3#64
  let cr := if level = 1 then
      { t.cr with
        sepc := epc, stcause := cause, stval := tval
        status := setSlice (setSlice (setSlice (setSlice st 4 2 (slice st 2 2)) 8 1 (slice st 0 1))
          0 1 0#1) 2 2 1#2 }
    else
      { t.cr with
        fepc := epc, ftcause := cause, ftval := tval
        status := setSlice (setSlice (setSlice (setSlice st 6 2 (slice st 2 2)) 9 1 (slice st 1 1))
          1 1 0#1) 2 2 2#2 }
  let pc := (if level = 1 then t.cr.stvec else fv) &&& ~~~3#64
  { s with
    exc := true
    tile := { t with cr := cr, eh := { c with pc := pc }, stuckSince := none, fetched := [] } }

/-- The part of a report that MFINFO holds (06 R126). -/
def State.writeMfinfo (s : State) (m : Option Word) : State :=
  match m with
  | none => s
  | some w => s.onTile fun t => { t with cr := { t.cr with mfinfo := w } }

/-- A miss joins the pending one of its context and page, or of the region once a large page has
shown there (06 R118). -/
def Miss.covers (m : Miss) (die ctx page : Nat) : Bool :=
  m.die == die && m.ctx == ctx &&
    (if m.large then m.page / 8192 == page / 8192 else m.page == page)

/-- A step of another agent that comes about inside the present one: it is next. -/
def State.post (s : State) (i : Instr) (a : EventArg) : State :=
  { s with agenda := .event i a :: s.agenda }

/-- The translation of an address misses the TLBs: the miss joins a walk or is put into the miss
table of the die, and the unit waits in wait state 0 (06 R118). -/
def State.awaitWalk (s : State) (va : Word) : State :=
  let page := va.toNat / 2 ^ 16
  let hit (m : Miss) : Bool := m.covers (dieOf s.cur) s.tile.ctx page
  let misses :=
    if s.misses.any hit then
      s.misses.map fun m => if hit m then { m with tiles := insertNat m.tiles s.cur } else m
    else s.misses ++ [⟨dieOf s.cur, s.tile.ctx, page, s.tile.cr.trbase, [s.cur], false⟩]
  { s with misses := misses }.stay 0

/-- A compact with snapshots that a DATAERR with REASON 13, or one from matrix-side memory, would
reach at the tile in focus: its number (13 R338). -/
def State.rollsBack (s : State) (cause : Nat) (mfinfo : Option Word) : Option Nat :=
  let ue := cause == Cause.dataerr.code && (match mfinfo with
    | some w => decide ((slice w 0 8).toNat = 13)
    | none => true)
  if !ue || s.tile.member.phase == .free then none
  else (s.compacts.find? fun c => c.signed && c.snap && c.num == s.tile.member.compact).map (·.num)

/-- The instruction under way traps. On the execute hart and in a replay the hart enters the
handler; a sequencer stops at the word and its trap waits for the execute hart (02 R40, 04 R79).
Nothing traps where the translation has to wait, for a walk (06 R118) or for a line that it reads,
whose local address then stands in place of MFINFO; nor where the compact of the hart rolls back
instead (13 R338). -/
def State.raise (s : State) (tr : Trap) : State :=
  if tr.cause = .waits then
    (match tr.mfinfo with
     | none => s.awaitWalk tr.tval
     | some la => { s with agenda := .examine (la.toNat / 64) :: s.agenda }.stay 0)
  else match s.rollsBack tr.cause.code tr.mfinfo with
  | some num => (s.post .rollback { EventArg.none with n₁ := num, tile := s.cur }).stay 0
  | none =>
  match s.who with
  | .eh | .vs =>
    (s.writeMfinfo tr.mfinfo).enterTrap false tr.cause.code tr.tval s.tile.eh.pc
      (s.tile.trapLevel tr.cause.code)
  | .as =>
    { s with
      exc := true
      tile := { s.tile with
        acSeq := { s.tile.acSeq with running := false, core := { s.tile.acSeq.core with wait := 5 } }
        deferred := s.tile.deferred ++ [⟨tr.cause.code, tr.tval, tr.mfinfo⟩] } }
  | .ss =>
    { s with
      exc := true
      tile := { s.tile with
        stSeq := { s.tile.stSeq with running := false, core := { s.tile.stSeq.core with wait := 5 } }
        deferred := s.tile.deferred ++ [⟨tr.cause.code, tr.tval, tr.mfinfo⟩] } }

/-- TVAL of ILLOP and PRIV: the word, and the unit in [33:32] (02 R40). -/
def State.wordTval (s : State) (w : Word32) : Word := 0#30 ++ BitVec.ofNat 2 s.who.source ++ w

def State.illop (s : State) (w : Word32) : State := s.raise ⟨.illop, s.wordTval w, none⟩

def State.privTrap (s : State) (w : Word32) : State := s.raise ⟨.priv, s.wordTval w, none⟩

/-- A trap for a hart other than the one that acts, to be taken at its next boundary (08 R201). -/
def State.deferTo (s : State) (n : Nat) (tr : Trap) : State :=
  s.modTile n fun t => { t with deferred := t.deferred ++ [⟨tr.cause.code, tr.tval, tr.mfinfo⟩] }

/-! ### Interrupts (16 R401, R404, R405, R460) -/

/-- The inbox count (11 R272). -/
def Tile.inboxDue (t : Tile) : Bool :=
  bitAt t.cr.inbctl 0 && decide ((slice t.cr.inbctl 8 8).toNat ≤ t.inbox.length)

/-- The bits of IPEND as they stand (16 R401, R460): TIMER and INBOX are levels. -/
def Tile.pending (t : Tile) (gtc : Nat) : Word :=
  let p := t.cr.ipend
  let p := setSlice p 2 1 (if t.cr.timecmp.toNat ≤ gtc then 1#1 else 0#1)
  setSlice p 3 1 (if t.inboxDue then 1#1 else 0#1)

/-- Interrupt `c` may be taken now (16 R405, 11 R290). -/
def Tile.takeable (t : Tile) (gtc c : Nat) : Bool :=
  bitAt (t.pending gtc) c && bitAt t.cr.ienable c &&
    (if c = 3 ∧ bitAt t.cr.inbctl 1 then t.level == 0 && !t.inh
     else t.level == 0 || (t.level == 1 && bitAt t.cr.status 0))

/-- The lowest interrupt that may be taken (16 R405). -/
def Tile.dueInterrupt (t : Tile) (gtc : Nat) : Option Nat :=
  [1, 2, 3, 4, 5, 6, 7, 8].find? (t.takeable gtc)

/-- Entry into a user-level handler (11 R291). -/
def State.enterUser (s : State) : State :=
  let t := s.tile.cutFrame
  let t := { t with v := t.v.settle, m := t.m.settle }
  { s with
    exc := true
    tile := { t with
      cr := { t.cr with uepc := t.eh.pc &&& ~~~3#64, inbctl := setSlice t.cr.inbctl 4 1 1#1 }
      eh := { t.eh with x := t.eh.x.settle, wait := 0, begun := none, pc := t.cr.uvec &&& ~~~3#64 }
      stuckSince := none, fetched := [] } }

/-- Interrupt `c` taken at the first instruction not yet issued (16 R405, R460). -/
def State.takeInterrupt (s : State) (c : Nat) : State :=
  if c = 3 ∧ bitAt s.tile.cr.inbctl 1 then s.enterUser
  else
    let s := s.enterTrap true c 0 s.tile.eh.pc 1
    if c = 1 ∨ c = 5 ∨ c = 6 ∨ c = 7 then
      s.onTile fun t => { t with cr := { t.cr with ipend := setSlice t.cr.ipend c 1 0#1 } }
    else s

/-- The oldest deferred trap taken (08 R201, 16 R405). -/
def State.takeDeferred (s : State) : State :=
  match s.tile.deferred with
  | [] => s
  | d :: rest =>
    let s := s.onTile fun t => { t with
      deferred := rest
      failed := if rest.isEmpty then [] else t.failed
      queues := vmap (fun q => q.map fun e => { e with faulted := false }) t.queues }
    (s.writeMfinfo d.mfinfo).enterTrap false d.cause d.tval s.tile.eh.pc (s.tile.trapLevel d.cause)

/-! ### The checks at issue (02 R40) -/

/-- A register that an instruction reads or writes. -/
inductive RegRef where
  | x (r : XReg)
  | v (r : Nat)
  | m (r : MReg)
  | t (r : TReg)
  | acc (r : AccReg)
  deriving DecidableEq, Repr

/-- The units that execute an instruction (02 R42). -/
inductive Units where
  | eh | all | ehAs | ehSs | as | ss
  deriving DecidableEq, Repr

def Units.has : Units → UnitId → Bool
  | .eh, .eh | .eh, .vs => true
  | .eh, .as | .eh, .ss => false
  | .all, _ => true
  | .ehAs, .ss => false
  | .ehAs, _ => true
  | .ehSs, .as => false
  | .ehSs, _ => true
  | .as, .as => true
  | .as, _ => false
  | .ss, .ss => true
  | .ss, _ => false

/-- What issue needs to know of an instruction: its word, its stall code, the units and the level
that may execute it, whether it serializes, whether it uses the vector unit or the matrix array,
its registers, whether it is a side effect of a task, and the conditions of ILLOP and PRIV that
depend on state (02 R40, R41, R42, R48, 15 R396). -/
structure Issue where
  word : Word32
  stall : StallCode := 0
  units : Units := .eh
  level : Nat := 0
  serial : Bool := false
  vector : Bool := false
  side : Bool := false
  reads : List RegRef := []
  writes : List RegRef := []
  illegal : State → Bool := fun _ => false
  priv : State → Bool := fun _ => false

/-- v(28 + k) is bound (06 R144). -/
def Tile.bound (t : Tile) (r : Nat) : Bool := decide (28 ≤ r) && bitAt t.bind (r - 28)

/-- The registers of the file of 40 that a request will write. -/
def Dest.writesX : Dest → Nat → Bool
  | .x r _ _, n => r == n
  | .x2 a b, n => a == n || b == n
  | .none, _ | .v _ _, _ | .t _, _ | .queue _ _, _ => false

def Dest.writesV : Dest → Nat → Bool
  | .v r _, n => r == n
  | .none, _ | .x _ _ _, _ | .x2 _ _, _ | .t _, _ | .queue _ _, _ => false

def Dest.writesT : Dest → Nat → Bool
  | .t r, n => r == n
  | .none, _ | .x _ _ _, _ | .x2 _ _, _ | .v _ _, _ | .queue _ _, _ => false

/-- The registers that a word of a FRAME window writes, over all iterations; for tile registers
and banks, those that it touches, since their writes have no second copy (02 R50, 04 R77). -/
def FrameRun.writes (f : FrameRun) (r : RegRef) : Bool :=
  f.words.any fun w =>
    let major := (slice w 22 7).toNat
    (List.range ((slice f.frame 10 8).toNat + 1)).any fun i =>
      let step (bit : Nat) : Nat := if bitAt f.frame bit then i * (slice f.frame 7 3).toNat else 0
      let a := ((slice w 17 5).toNat + step 6) % 32
      let b := ((slice w 12 5).toNat + step 5) % 32
      let c := ((slice w 7 5).toNat + step 4) % 32
      match r with
      | .x _ => false
      | .v k =>
        if major = 0x76 then decide (a ≤ k ∧ k ≤ a + 3)
        else decide (major < 0x6A ∨ (0x6B ≤ major ∧ major ≤ 0x6E)) &&
          !(decide (0x55 ≤ major ∧ major ≤ 0x57)) && a == k
      | .m k => (decide (0x55 ≤ major ∧ major ≤ 0x57) || major == 0x6A) && a % 8 == k.toNat
      | .t k => decide (0x72 ≤ major ∧ major ≤ 0x74) && (b % 8 == k.toNat || c % 8 == k.toNat)
      | .acc k => decide (0x72 ≤ major ∧ major ≤ 0x76) &&
          (if major = 0x76 then b else a) % 4 == k.toNat

/-- A request precedes the instruction under way in the program order of its registers: it is the
unit's own, or, for a replayed word, one of the execute hart that is older than the replay. -/
def State.precedes (s : State) (q : Req) : Bool :=
  q.unit == s.who || (s.who == .vs && q.unit == .eh && (match s.tile.frame with
    | some f => decide (q.id < f.born)
    | none => false))

/-- A result that the instruction needs or would overwrite is still outstanding (02 R45), or it
belongs to a request that has failed and whose trap comes first (08 R201). The requests of a tile
for one tile register follow one another (10 R242). -/
def State.reqBusy (s : State) (r : RegRef) : Bool :=
  let mine := s.tile.reqs.filter s.precedes
  let lost := s.tile.failed.filter fun p => p.1 == s.who
  match r with
  | .x k => k != 0 && (mine.any (·.dest.writesX (s.xIndex k.toNat)) ||
      lost.any (·.2.writesX (s.xIndex k.toNat)))
  | .v k => !(s.tile.bound k) && (mine.any (·.dest.writesV k) || lost.any (·.2.writesV k))
  | .t k => s.tile.reqs.any (·.dest.writesT k.toNat) || lost.any (·.2.writesT k.toNat)
  | .m _ | .acc _ => false

/-- A running replay writes a register that the execute hart reads (02 R50). -/
def State.frameBusy (s : State) (r : RegRef) : Bool :=
  s.who == .eh && match s.tile.frame with
    | none => false
    | some f => f.writes r

/-- The latest write to a register that the instruction reads is not visible yet (02 R47):
its file and number. -/
def State.regShort (s : State) (r : RegRef) : Option (Nat × Nat) :=
  match r with
  | .x k => if k != 0 && s.core.x.short (s.xIndex k.toNat) s.pos then some (0, k.toNat) else none
  | .v k => if !(s.tile.bound k) && s.tile.v.short k s.pos then some (1, k) else none
  | .m k => if k != 0 && s.tile.m.short k.toNat s.pos then some (2, k.toNat) else none
  | .t _ | .acc _ => none

/-- Earlier loads, atomics or calls of the unit that have not completed (02 R48). -/
def State.unitBusy (s : State) : Bool :=
  s.tile.reqs.any (fun q => q.unit == s.who && q.engine.isNone && q.kind != .store)

/-- The instruction has to wait at issue for earlier results or for a replay (02 R45, R48, R50,
04 R77). -/
def State.mustWait (s : State) (i : Issue) : Bool :=
  (i.serial && (s.unitBusy || (s.who == .eh && s.tile.frame.isSome))) ||
  (i.vector && s.who == .eh && s.tile.frame.isSome) ||
  i.reads.any s.reqBusy || i.writes.any s.reqBusy || i.reads.any s.frameBusy

/-- The first register that the checking scoreboard refuses (02 R47). A serializing instruction
reads after it has settled the earlier writes, so that it never falls short (log 61). Which register
TVAL names where several fall short is not stated: the model names the first in the order of
Issue.reads (DESIGN CHOICE, log 70). -/
def State.schkFails (s : State) (i : Issue) : Option (Nat × Nat) :=
  if bitAt s.tile.cr.status 10 && !i.serial then i.reads.findSome? s.regShort else none

/-- Issue (02 R40): the conditions of ILLOP, privilege, the checking scoreboard, and then the
instruction's own faults and effect. A serializing instruction is a boundary (02 R49). Whether its
own reads lie behind that boundary is not stated: the model settles first, so that they see every
earlier write and the checking scoreboard passes them (DESIGN CHOICE, log 61). -/
def State.issue (s : State) (i : Issue) (body : State → State) : State :=
  if !(i.units.has s.who) then s.illop i.word
  else if s.mustWait i then s.stay (if s.tile.frame.isSome then s.core.wait else 0)
  else
    let s := if i.serial then s.settle else s
    if i.illegal s then s.illop i.word
    else if s.tile.level < i.level || i.priv s then s.privTrap i.word
    else match s.schkFails i with
      | some (file, n) =>
        s.raise ⟨.stallshort,
          0#30 ++ BitVec.ofNat 2 s.who.source ++ 0#24 ++ BitVec.ofNat 3 file ++ BitVec.ofNat 5 n,
          none⟩
      | none => body s

/-- The task that runs has issued a side effect (15 R396), by itself or in a replay of its FRAME. -/
def State.noteSide (s : State) (side : Bool) : State :=
  if side && (s.who == .eh || s.who == .vs) && s.tile.tasks.running.isSome then
    s.onTile fun t => { t with tasks := { t.tasks with side := true } }
  else s

/-- The instruction completes and the unit goes on at `pc`. -/
def State.finishAt (s : State) (i : Issue) (pc : Word) : State :=
  (s.noteSide i.side).goTo pc (if i.serial then 0 else stallWait i.stall)

/-- The instruction completes and the next word follows. -/
def State.finish (s : State) (i : Issue) : State := s.finishAt i (s.pc + 4)

/-- The word of an instruction that carries no STALL field, with the field as fetched
(02 R48, R40). -/
def State.withStall (s : State) (w : Word32) : Word32 := slice s.ir 29 3 ++ slice w 0 29

end Sys2Proof.Machine
end

