-- ==== Sys2Proof/Machine/Home.lean ====
section
/-! DEFINITION. The physical map, tile SRAM and its windows, tile caches and their owners, what a
home reads and writes, and translation (06). -/
namespace Sys2Proof.Machine

/-! ### The physical map (06 R112, R113, 16 R411, 17 R437) -/

/-- What lies at a local address. -/
inductive Region where
  | hbm
  /-- Tile window: tile and offset. -/
  | window (tile off : Nat)
  /-- Launch window: offset. -/
  | launch (off : Nat)
  /-- Control and engine registers: offset from 0x200_0000_0000. -/
  | regs (off : Nat)
  | appSram
  | appRegs (off : Nat)
  | hostMem
  | unmapped
  deriving DecidableEq, Repr

/-- An error bank of the device (16 R423). -/
def bankExists (id : Nat) : Bool :=
  let die := id / 1024 % 4
  let index := id % 1024
  match id / 4096 with
  | 0 => decide (index ≤ 527)
  | 1 | 2 => decide (index ≤ 63)
  | 3 | 5 => true
  | 4 => decide (index ≤ 1)
  | 6 => decide (die = 0) && decide (index ≤ 4)
  | _ => false

/-- The registers of the register space above the launch window (16 R411, 18 R447, 20 R454). -/
inductive RegName where
  | binding (line : Nat)
  | bank (id word : Nat)
  | slicemap (die i : Nat)
  | ctxkill
  | resetvec (die : Nat)
  | errinj
  | preq
  | block (ctx off : Nat)
  | channelImage (tile off : Nat)
  | doorbell (tile : Nat)
  deriving DecidableEq, Repr

/-- The register at an offset of the register space, where there is one (16 R411). -/
def regName (off : Nat) : Option RegName :=
  let w := off / 8 * 8
  if 0x80000 ≤ w ∧ w < 0x88000 then some (.binding ((w - 0x80000) / 8))
  else if 0x20000000 ≤ w ∧ w < 0x20200000 then
    (if bankExists ((w - 0x20000000) / 32) then
      some (.bank ((w - 0x20000000) / 32) ((w - 0x20000000) % 32 / 8)) else none)
  else if 0x30000000 ≤ w ∧ w < 0x30000800 then
    some (.slicemap ((w - 0x30000000) / 0x200) ((w - 0x30000000) % 0x200 / 8))
  else if w = 0x30001000 then some .ctxkill
  else if 0x30001008 ≤ w ∧ w < 0x30001028 then some (.resetvec ((w - 0x30001008) / 8))
  else if w = 0x30001100 then some .errinj
  else if w = 0x30001200 then some .preq
  else if 0x40000000 ≤ w ∧ w < 0x50000000 then
    (if (w - 0x40000000) % 0x10000 < 96 then
      some (.block ((w - 0x40000000) / 0x10000) ((w - 0x40000000) % 0x10000 / 8)) else none)
  else if 0x80000000 ≤ w ∧ w < 0x90000000 then
    (let t := (w - 0x80000000) / 0x20000
     let o := (w - 0x80000000) % 0x20000
     if o < 0x4800 then some (.channelImage t o)
     else if o = 0x10000 then some (.doorbell t) else none)
  else none

/-- The local map of every device (06 R112). -/
def regionOf (la : Nat) : Region :=
  if la < 0x6000000000 then .hbm
  else if 0x10000000000 ≤ la ∧ la < 0x10200000000 then
    .window ((la - 0x10000000000) / 0x400000) ((la - 0x10000000000) % 0x400000)
  else if 0x20000000000 ≤ la ∧ la < 0x20000080000 then .launch (la - 0x20000000000)
  else if 0x20000080000 ≤ la ∧ la < 0x30000000000 then
    (match regName (la - 0x20000000000) with
     | some _ => .regs (la - 0x20000000000)
     | none => .unmapped)
  else if 0x30000000000 ≤ la ∧ la < 0x30000800000 then .appSram
  else if 0x30010000000 ≤ la ∧ la < 0x30010010000 then .appRegs (la - 0x30010000000)
  else if 0x38000000000 ≤ la ∧ la < 0x40000000000 then .hostMem
  else .unmapped

/-- A window line beyond the eight windows is no part of the SRAM (06 R124, R125): a window of
4 MiB holds windows 0 to 7 of 512 KiB each. -/
def windowOf (off : Nat) : Nat := off / 0x80000

/-- The device field of a physical address names this device (01 R21). -/
def State.isLocal (s : State) (pa : Nat) : Bool :=
  pa / 2 ^ 44 == 0xFFF || pa / 2 ^ 44 == s.device

/-- The device field names this device or one present in the domain. -/
def State.isPresent (s : State) (pa : Nat) : Bool :=
  s.isLocal pa || (decide (pa / 2 ^ 44 < 0xC00) && s.peers.contains (pa / 2 ^ 44))

/-- The local address of a physical address. -/
def localAddr (pa : Nat) : Nat := pa % 2 ^ 44

/-- The number of a page of 64 KiB: those of other devices stand above every local one. -/
def State.pageOf (s : State) (pa : Nat) : Nat :=
  if s.isLocal pa then localAddr pa / 0x10000 else 2 ^ 40 + pa / 0x10000

/-- The address by which a tile cache and the pin table know a physical address: the local address,
or one above every local address for another device. -/
def State.keyOf (s : State) (pa : Nat) : Nat :=
  if s.isLocal pa then localAddr pa else 2 ^ 56 + pa

/-- The address of the line that holds `a`. -/
def lineOf (a : Nat) : Nat := a / 128 * 128

/-- The number of the 64-byte sector that holds `a`. -/
def sectorOf (a : Nat) : Nat := a / 64

/-- The slice that homes an offset of a die (06 R114). -/
def sliceHash (o : Nat) : Nat :=
  let b := BitVec.ofNat 64 o
  (slice b 7 6 ^^^ slice b 13 6 ^^^ slice b 19 6 ^^^ slice b 25 6 ^^^ slice b 31 6).toNat

/-- The HBM stack that holds a local address of HBM (06 R114). -/
def stackOf (la : Nat) : Nat :=
  let k := la / 0x1800000000
  let b := BitVec.ofNat 64 (la - k * 0x1800000000)
  2 * k + (slice b 12 1 ^^^ slice b 21 1 ^^^ slice b 30 1).toNat

/-- The home of a line: die and slice; the base die is die 4 (06 R114). -/
def State.homeOf (s : State) (la : Nat) : Nat × Nat :=
  match regionOf la with
  | .hbm =>
    let k := la / 0x1800000000
    (k, (vget (vget s.slicemap k (Vector.replicate 64 0))
      (sliceHash (la - k * 0x1800000000)) 0).toNat)
  | .window n _ =>
    (dieOf n, (vget (vget s.slicemap (dieOf n) (Vector.replicate 64 0))
      (sliceHash (la - 0x10000000000)) 0).toNat)
  | .launch _ | .regs _ | .appSram | .appRegs _ | .hostMem | .unmapped => (4, 0)

/-! ### Bytes -/

/-- `n` bytes from a reader of bytes, little-endian (R1). -/
def readLE (f : Nat → Byte) (a : Nat) : Nat → Nat
  | 0 => 0
  | n + 1 => (f a).toNat + 256 * readLE f (a + 1) n

/-- Byte `i` of a value (R1). -/
def byteOf (v i : Nat) : Byte := BitVec.ofNat 8 (v / 256 ^ i)

/-- `n` bytes of a value written through a writer of bytes, lowest first (R1). -/
def writeLE {α : Type} (f : α → Nat → Byte → α) (x : α) (a v : Nat) : Nat → α
  | 0 => x
  | n + 1 => writeLE f (f x a (byteOf v 0)) (a + 1) (v / 256) n

/-! ### Tile SRAM (06 R121, R124, R125) -/

/-- Segment `k` is in scratchpad use (06 R121). -/
def Tile.scratch (t : Tile) (k : Nat) : Bool := bitAt t.cr.segmode k

/-- The number of segments in cache use: the ways of the tile cache (06 R122). -/
def Tile.ways (t : Tile) : Nat := ((List.range 8).filter fun k => !t.scratch k).length

/-- A segment in cache use whose way is free in the set of a line (06 R122). -/
def Tile.freeWay (t : Tile) (line : Nat) : Option Nat :=
  (List.range 8).find? fun k => !t.scratch k &&
    !(t.cache.any fun l => l.way == k && l.addr / 128 % 512 == line / 128 % 512)

/-- The bits of element `e` of the block at `b` in SRAM, as the number q (05 R96). -/
def Tile.bpElement (t : Tile) (b e : Nat) : BitVec 8 :=
  (List.range 8).foldl (fun q k =>
    if bitAt (t.sram.read (b + 128 * (7 - k) + e / 8)) (e % 8) then q ||| (1#8 <<< k) else q) 0#8

/-- What window `w` ≥ 1 reads at byte `o` (06 R125, 05 R97). Whose WINCFG.CENTER counts where the
reader is another tile is not stated: the model takes that of the tile whose window is read (DESIGN
CHOICE, log 70). -/
def Tile.bpByte (t : Tile) (w o : Nat) : Byte :=
  let q := t.bpElement (o / 1024 * 1024) (o % 1024)
  let v := q.sshiftRight (7 - w)
  if w < 7 ∧ bitAt t.cr.wincfg 0 then v + v + 1 else v

/-- A byte stored through window 7: one bit in each of the eight planes (06 R125). -/
def Tile.bpStore (t : Tile) (o : Nat) (q : Byte) : Tile :=
  let b := o / 1024 * 1024
  let e := o % 1024
  let put (m : Memory) (k : Nat) : Memory :=
    let a := b + 128 * (7 - k) + e / 8
    let old := m.read a
    m.write a (if bitAt q k then old ||| (1#8 <<< (e % 8)) else old &&& ~~~(1#8 <<< (e % 8)))
  { t with sram := (List.range 8).foldl put t.sram }

/-- A byte read through a tile's window. -/
def Tile.windowByte (t : Tile) (off : Nat) : Byte :=
  if windowOf off = 0 then t.sram.read off else t.bpByte (windowOf off) (off % 0x80000)

/-- Sectors of its range that a compact member has written since the latest snapshot (13 R337). -/
def Tile.markWritten (t : Tile) (off : Nat) : Tile :=
  if t.member.phase = .free then t
  else { t with member := { t.member with written := insertNat t.member.written (off / 64) } }

/-- A byte written through a tile's window; windows 1 to 6 accept none. -/
def Tile.windowStore (t : Tile) (off : Nat) (v : Byte) : Tile :=
  if windowOf off = 0 then { t with sram := t.sram.write off v }.markWritten off
  else if windowOf off = 7 then
    (List.range 8).foldl (fun t k => t.markWritten (off % 0x80000 / 1024 * 1024 + 128 * k))
      (t.bpStore (off % 0x80000) v)
  else t

/-! ### Tile caches and owners (06 R122, R123, 08 R186, R187) -/

/-- The copy of a line that a tile holds. -/
def Tile.line (t : Tile) (line : Nat) : Option CacheLine := t.cache.find? (·.addr == line)

def Tile.dropLine (t : Tile) (line : Nat) : Tile :=
  { t with cache := t.cache.filter (·.addr != line) }

def Tile.setLine (t : Tile) (l : CacheLine) : Tile :=
  { t with cache := t.cache.map fun x => if x.addr = l.addr then l else x }

/-- Byte `i` of a line. -/
def CacheLine.byte (l : CacheLine) (i : Nat) : Byte := slice l.data (8 * (i % 128)) 8

def CacheLine.put (l : CacheLine) (i : Nat) (v : Byte) : CacheLine :=
  { l with data := setSlice l.data (8 * (i % 128)) 8 v }

/-- The line with the sector of byte `i` dirty, written by a context. -/
def CacheLine.soil (l : CacheLine) (i ctx : Nat) : CacheLine :=
  if i % 128 < 64 then { l with dirty0 := true, tag0 := ctx }
  else { l with dirty1 := true, tag1 := ctx }

/-- The sector of byte `i` has been filled (06 R122). -/
def CacheLine.valid (l : CacheLine) (i : Nat) : Bool := if i % 128 < 64 then l.valid0 else l.valid1

/-- The sector of byte `i` filled with 64 bytes. -/
def CacheLine.fillSector (l : CacheLine) (i : Nat) (v : BitVec 512) : CacheLine :=
  if i % 128 < 64 then { l with data := setSlice l.data 0 512 v, valid0 := true }
  else { l with data := setSlice l.data 512 512 v, valid1 := true }

/-- The tile's copy of the sector that holds an address. -/
def Tile.copyAt (t : Tile) (la : Nat) : Option CacheLine :=
  (t.line (lineOf la)).filter (·.valid la)

/-- The tile that owns a line (08 R186). -/
def State.ownerOf (s : State) (line : Nat) : Option Nat :=
  (s.tiles.find? fun p => match p.2.line line with
    | some l => l.owned
    | none => false).map (·.1)

/-- The line of the application complex's shared cache (17 R436). -/
def State.appLine (s : State) (line : Nat) : Option CacheLine := s.appCache.find? (·.addr == line)

/-- The shared cache of the application complex owns a line (17 R436). -/
def State.appOwns (s : State) (line : Nat) : Bool :=
  match s.appLine line with
  | some l => l.owned
  | none => false

/-- One byte as its home holds it, an owned line being read at its owner. -/
def State.homeByte (s : State) (la : Nat) : Byte :=
  match s.ownerOf (lineOf la) with
  | none => match s.appLine (lineOf la) with
    | some l => if l.owned && l.valid la then l.byte la else s.mem.read la
    | none => s.mem.read la
  | some n => match (s.getTile n).copyAt la with
    | some l => l.byte la
    | none => s.mem.read la

/-- The owner tag of a dirty sector (08 R186); none for a clean one. -/
def State.tagOf (s : State) (sector : Nat) : Option Nat :=
  (s.tags.find? fun p => p.1 == sector).map (·.2)

def State.setTag (s : State) (sector ctx : Nat) : State := { s with tags := putKey s.tags sector ctx }

/-- A write of the whole sector replaces poison and an injected error (16 R426, 18 R448). -/
def State.cleanse (s : State) (sector : Nat) : State :=
  { s with
    poisoned := s.poisoned.filter fun p => p.1 != sector
    injected := s.injected.filter fun p => p.1 != sector }

/-- A write that arrives at a line's home breaks the reservations of LR on it (17 R436). -/
def State.breakRes (s : State) (line : Nat) : State :=
  { s with reservations := s.reservations.filter fun p => p.2 != line }

/-! ### Error banks (16 R423, R424) -/

/-- The record of a bank; an empty bank reads zero. -/
def State.bank (s : State) (id : Nat) : BankRecord :=
  match s.banks.find? (·.bank == id) with
  | some b => b
  | none => ⟨id, 0, 0, 0⟩

def State.setBank (s : State) (b : BankRecord) : State :=
  { s with banks := b :: s.banks.filter (·.bank != b.bank) }

/-- An event is applied to a bank (16 R424): an uncorrectable one with `ue`, contained with
`cont`. -/
def State.record (s : State) (id kind : Nat) (ue cont : Bool) (sub loc : Nat) : State :=
  let b := s.bank id
  let valid := bitAt b.w0 8
  let isUe := bitAt b.w0 9
  let fresh : Word := 0#8 ++ 0#8 ++ 0#16 ++ BitVec.ofNat 16 id ++ 0#3 ++
    (if cont then 1#1 else 0#1) ++ 0#1 ++ 0#1 ++ (if ue then 1#1 else 0#1) ++ 1#1 ++ 0#4 ++
    BitVec.ofNat 4 kind
  let w1 : Word := BitVec.ofNat 8 sub ++ BitVec.ofNat 56 loc
  let w2 : Word := BitVec.ofNat 64 s.gtc
  if ue then
    if valid && isUe then
      let ov := BitVec.ofNat 8 (min 255 ((slice b.w0 48 8).toNat + 1))
      s.setBank { b with w0 := setSlice (setSlice b.w0 11 1 1#1) 48 8 ov }
    else
      s.setBank ⟨id, setSlice (setSlice fresh 32 16 (slice b.w0 32 16)) 10 1
        (if valid then 1#1 else 0#1), w1, w2⟩
  else if valid then
    let mce := BitVec.ofNat 16 (min 65535 ((slice b.w0 32 16).toNat + 1))
    s.setBank { b with w0 := setSlice b.w0 32 16 mce }
  else s.setBank ⟨id, fresh, w1, w2⟩

/-- The bank of the slice that homes an address; the base die's home for the application complex
(16 R423, 06 R114). -/
def State.homeBank (s : State) (la : Nat) : Nat :=
  let h := s.homeOf la
  if h.1 = 4 then 0x6000 else 0x1000 + h.1 * 1024 + h.2

/-- The physical position of a tile: 33 to a cluster (01 R14). -/
def State.position (s : State) (n : Nat) : Nat := n % 512 / 32 * 33 + (s.getTile n).physical

/-- The bank of a tile (16 R423). -/
def State.tileBank (s : State) (n : Nat) : Nat := dieOf n * 1024 + s.position n

/-- The bank that takes an error of a sector: that of a scratchpad's tile, or that of the home
(16 R423). -/
def State.errorBank (s : State) (la : Nat) : Nat :=
  match regionOf la with
  | .window n _ => s.tileBank n
  | .hbm | .launch _ | .regs _ | .appSram | .appRegs _ | .hostMem | .unmapped => s.homeBank la

/-! ### Errors found by a read at the home (16 R426, 18 R448) -/

/-- The slice that homes an address, as one number. -/
def State.sliceNumber (s : State) (la : Nat) : Nat :=
  let h := s.homeOf la
  h.1 * 64 + h.2

/-- The way of its slice that holds a line: the first that is not disabled, from the one that its
address names. Which way a slice chooses is not architectural (DESIGN CHOICE, log 20). -/
def State.wayOf (s : State) (la : Nat) : Nat :=
  let way (i : Nat) : Nat := (la / 8192 + i) % 16
  match (List.range 16).find? fun i => !(s.service.waysOff.contains (s.sliceNumber la, way i)) with
  | some i => way i
  | none => way 0

/-- The dirty sectors, but for one, that the way of a slice holds which holds that one. -/
def State.wayMates (s : State) (sector : Nat) : List Nat :=
  (s.tags.map (·.1)).filter fun k => k != sector &&
    s.sliceNumber (64 * k) == s.sliceNumber (64 * sector) && s.wayOf (64 * k) == s.wayOf (64 * sector)

/-- A sector whose data are lost, and the context that owned them. -/
def State.poison (s : State) (sector ctx : Nat) : State :=
  { s with poisoned := (sector, ctx) :: s.poisoned.filter fun p => p.1 != sector }

/-- Where an error of a sector is recorded to be. -/
def State.errorLoc (s : State) (sector : Nat) : Nat := s.device * 2 ^ 44 + lineOf (64 * sector)

/-- The error is put on record, the sector's data are lost, its frame is retired and its way
disabled (16 R426). -/
def State.loseDirty (s : State) (sector ctx : Nat) : State :=
  let way := s.wayOf (64 * sector)
  let t := (s.record (s.errorBank (64 * sector)) 3 true true way (s.errorLoc sector)).poison sector ctx
  { t with
    tags := t.tags.filter fun p => p.1 != sector
    agenda := (s.wayMates sector).map Move.clean ++ t.agenda
    service := { t.service with
      retired := insertNat t.service.retired (64 * sector / 0x10000)
      waysOff := (s.sliceNumber (64 * sector), way) :: t.service.waysOff } }

/-- An uncorrectable error in a sector (16 R426). A clean one is fetched again. For a dirty one the
owner's context is killed, the sector poisoned, its frame retired, and the way disabled; the kill
and then the write-backs of the other lines of the way, the line's other sector among them, are the
next steps. A scratchpad loses the sector, which concerns its readers alone. -/
def State.contain (s : State) (sector : Nat) : State :=
  let la := 64 * sector
  match regionOf la with
  | .window n _ =>
    (s.record (s.errorBank la) 3 true false (sector % 2) (s.errorLoc sector)).poison sector
      (s.getTile n).ctx
  | .hbm | .launch _ | .regs _ | .appSram | .appRegs _ | .hostMem | .unmapped =>
  match s.tagOf sector with
  | none => s.record (s.errorBank la) 2 false false (s.wayOf la) (s.errorLoc sector)
  | some ctx =>
    if s.killed.contains ctx then s.loseDirty sector ctx
    else (s.loseDirty sector ctx).post .ctxkill
      { EventArg.none with n₁ := ctx, w₁ := BitVec.ofNat 64 (s.errorBank la) }

/-- An event of a tile's bank. Which part of the tile SUB names is not stated: it is free
(log 14). -/
def State.tileError (s : State) (n kind : Nat) (ue : Bool) (loc : Nat) : State :=
  { s with fresh := s.fresh + 1 }.record (s.tileBank n) kind ue false
    (slice (Config.freeWord s.fresh) 0 8).toNat loc

/-- An uncorrectable error in a line of a tile cache (16 R426): the home is left with the lost
sectors of a dirty one, and any other is fetched again. -/
def State.lineLost (s : State) (n line : Nat) : State :=
  match (s.getTile n).line line with
  | none => s
  | some l =>
    let s := s.modTile n (·.dropLine line)
    let lose (s : State) (k : Nat) : State :=
      (s.setTag (sectorOf line + k) (if k = 0 then l.tag0 else l.tag1)).contain (sectorOf line + k)
    if !l.dirty0 && !l.dirty1 then
      s.tileError n 2 false (s.device * 2 ^ 44 + line)
    else
      let s := if l.dirty0 then lose s 0 else s
      if l.dirty1 then lose s 1 else s

/-- An uncorrectable error in a line of the application complex's shared cache: dirty data of a
context are contained, and any other line is fetched again (17 R439, 16 R423, R426). -/
def State.appLost (s : State) (line : Nat) : State :=
  match s.appLine line with
  | none => s
  | some l =>
    let s := { s with appCache := s.appCache.filter fun x => x.addr != line }
    let lose (s : State) (k : Nat) : State :=
      (s.setTag (sectorOf line + k) (if k = 0 then l.tag0 else l.tag1)).contain (sectorOf line + k)
    if !l.dirty0 && !l.dirty1 then s.record 0x6002 2 false false 0 (s.device * 2 ^ 44 + line)
    else
      let s := if l.dirty0 then lose s 0 else s
      if l.dirty1 then lose s 1 else s

/-- A read of a sector by any means: an injected error is detected and handled. -/
def State.detect (s : State) (sector : Nat) : State :=
  match s.injected.find? (·.1 == sector) with
  | none => s
  | some (_, ue) =>
    let s := { s with injected := s.injected.filter fun p => p.1 != sector }
    if ue then s.contain sector
    else
      s.record (s.errorBank (64 * sector)) 1 false false (s.wayOf (64 * sector)) (s.errorLoc sector)

/-- A slice writes a sector back to its stack: a read of the sector, after which it is clean
(18 R448). -/
def State.cleanSector (s : State) (sector : Nat) : State :=
  let s := s.detect sector
  { s with tags := s.tags.filter fun p => p.1 != sector }

/-- The sector is lost: a read of it returns DATAERR with REASON 13. -/
def State.lost (s : State) (sector : Nat) : Bool := s.poisoned.any fun p => p.1 == sector

/-- The sectors that a read at an address fetches: its own, or, through a window w of 1 to 7, those
of the first w + 1 plane lines of its block (06 R125). -/
def readSectors (la : Nat) : List Nat :=
  match regionOf la with
  | .window n off =>
    if windowOf off = 0 then [sectorOf la]
    else
      let b := 0x10000000000 + n * 0x400000 + off % 0x80000 / 1024 * 1024
      (List.range (2 * (windowOf off + 1))).map fun k => sectorOf b + k
  | .hbm | .launch _ | .regs _ | .appSram | .appRegs _ | .hostMem | .unmapped => [sectorOf la]

/-- A read at an address finds the errors of the sectors that it fetches. -/
def State.detectRead (s : State) (la : Nat) : State := (readSectors la).foldl State.detect s

/-- The first lost sector that a read at an address fetches. -/
def State.lostRead (s : State) (la : Nat) : Option Nat := (readSectors la).find? s.lost

/-- A sector written back to its home with its owner tag. What is written back to another device
is not seen here (log 15). -/
def State.writeBack (s : State) (line sec : Nat) (l : CacheLine) : State :=
  if 2 ^ 56 ≤ line then s
  else
    let s := s.breakRes line
    let a := line + 64 * sec
    let m := (List.range 64).foldl (fun m i => m.write (a + i) (l.byte (64 * sec + i))) s.mem
    ({ s with mem := m }.cleanse (sectorOf a)).setTag (sectorOf a) (if sec = 0 then l.tag0 else l.tag1)

/-- The dirty sectors of a tile's copy written back to the home. -/
def State.writeBackLine (s : State) (l : CacheLine) : State :=
  let s := if l.dirty0 then s.writeBack l.addr 0 l else s
  if l.dirty1 then s.writeBack l.addr 1 l else s

/-- The shared cache of the application complex gives up a line, whose dirty sectors are written
back (17 R436). -/
def State.dropApp (s : State) (line : Nat) : State :=
  match s.appLine line with
  | none => s
  | some l =>
    { s with appCache := s.appCache.filter fun x => x.addr != line }.writeBackLine l

/-- Both sectors of a line are read at its home: their errors are found (18 R448). -/
def State.detectLine (s : State) (line : Nat) : State :=
  (s.detect (sectorOf line)).detect (sectorOf line + 1)

/-- A recall: the owner writes back its dirty sectors and gives up the line (08 R187, 17 R436). It
counts as a read of the line at its home (18 R448). -/
def State.recall (s : State) (line : Nat) : State :=
  match s.ownerOf line with
  | none => if s.appOwns line then (s.detectLine line).dropApp line else s
  | some n => match (s.getTile n).line line with
    | none => s
    | some l => ((s.detectLine line).modTile n (·.dropLine line)).writeBackLine l

/-- A tile drops a line; a line that it owns is written back first (06 R122, R123). -/
def State.evictLine (s : State) (n line : Nat) : State :=
  match (s.getTile n).line line with
  | none => s
  | some l => (s.modTile n (·.dropLine line)).writeBackLine l

/-- Room for one more line in the set of `line`: the oldest line of a full set is evicted. -/
def State.makeRoom (s : State) (n line : Nat) : State :=
  let t := s.getTile n
  if (t.freeWay line).isSome then s
  else match t.cache.find? fun l => l.addr / 128 % 512 == line / 128 % 512 with
    | none => s
    | some l => s.evictLine n l.addr

/-- The bytes of the sector of an address as its home holds them. -/
def State.homeSector (s : State) (la : Nat) : BitVec 512 :=
  BitVec.ofNat 512 (readLE s.homeByte (la / 64 * 64) 64)

/-- A line with no sector filled. -/
def CacheLine.bare (line way : Nat) (owned : Bool) : CacheLine :=
  ⟨line, 0, way, owned, false, false, false, false, 0, 0⟩

/-- A copy of the sector of an address put into the cache of tile `n`: into the line that it holds,
or into a new one, not owned, if a way is free (06 R122). -/
def State.fill (s : State) (n la : Nat) : State :=
  let t := s.getTile n
  match t.line (lineOf la) with
  | some l => if l.valid la then s else s.setTile n (t.setLine (l.fillSector la (s.homeSector la)))
  | none =>
    match t.freeWay (lineOf la) with
    | none => s
    | some w => s.setTile n { t with
        cache := t.cache ++ [(CacheLine.bare (lineOf la) w false).fillSector la (s.homeSector la)] }

/-- Tile `n` becomes the owner of the line of an address, with the address's sector filled
(06 R122, R123). The shared cache of the application complex gives up its copy (17 R436). -/
def State.own (s : State) (n la : Nat) : State :=
  let line := lineOf la
  let s := ((s.recall line).dropApp line).modTile n (·.dropLine line)
  let s := s.makeRoom n line
  match (s.getTile n).freeWay line with
  | none => s
  | some w => s.modTile n fun t => { t with
      cache := t.cache ++ [(CacheLine.bare line w true).fillSector la (s.homeSector la)] }

/-- The tile's copy of a line, where it does not own the line, is dropped: an atomic or a call of
the tile on the line makes it stale (08 R187). -/
def State.dropCopy (s : State) (line : Nat) : State :=
  match s.tile.line line with
  | some l => if l.owned then s else s.onTile (·.dropLine line)
  | none => s

/-- Every line that the tile does not own is dropped: an acquire (07 R167). -/
def Tile.invalidate (t : Tile) : Tile := { t with cache := t.cache.filter (·.owned) }

/-! ### Pins (13 R319, R335, 19 R449) -/

/-- The pinned range that an address (State.keyOf) backs, and the offset in the SRAM of the member's
tile. -/
def State.backedAt (s : State) (la : Nat) : Option (Pin × Nat) :=
  (s.pins.find? fun p => p.pages.contains (la / 0x10000)).map fun p =>
    (p, (p.first + p.pages.idxOf (la / 0x10000)) * 0x10000 + la % 0x10000)

/-- The pinned range that an address (State.keyOf) lies in, and the offset in the SRAM of the
member's tile: reached through the tile's window or through the backing lines. -/
def State.pinAt (s : State) (la : Nat) : Option (Pin × Nat) :=
  match regionOf la with
  | .window n off =>
    let o := off % 0x80000
    ((s.pins.find? fun p => p.tile == n && decide (p.first ≤ o / 0x10000) &&
      decide (o / 0x10000 < p.first + p.pages.length)).map fun p => (p, o)).or (s.backedAt la)
  | .hbm | .appSram | .hostMem | .unmapped => s.backedAt la
  | .launch _ | .regs _ | .appRegs _ => none

/-- The window-0 address of the scratchpad byte behind a backing address of the tile's own pinned
range (19 R449). -/
def State.ownBacking (s : State) (n la : Nat) : Option Nat :=
  match regionOf la with
  | .hbm | .window _ _ | .appSram | .hostMem | .unmapped =>
    (s.pins.find? fun p => p.tile == n && p.pages.contains (la / 0x10000)).map fun p =>
      0x10000000000 + n * 0x400000 + (p.first + p.pages.idxOf (la / 0x10000)) * 0x10000 +
        la % 0x10000
  | .launch _ | .regs _ | .appRegs _ => none

/-- The address at which an access of a tile is performed: a member's own backing address is its
scratchpad (19 R449). -/
def State.redirect (s : State) (n la : Nat) : Nat := (s.ownBacking n la).getD la

/-- The address from which a read by tile `n` is served: that of the scratchpad where the range is
pinned (13 R335). -/
def State.pinLa (s : State) (n la : Nat) : Nat :=
  match s.ownBacking n la with
  | some a => a
  | none =>
    match s.backedAt la with
    | some (p, o) => 0x10000000000 + p.tile * 0x400000 + o
    | none => la

/-- A pinned range of another member than tile `n` (13 R335). -/
def State.pinnedFor (s : State) (n la : Nat) : Bool :=
  (s.ownBacking n la).isNone && match s.pinAt la with
    | some (p, _) => p.tile != n
    | none => false

/-- A pinned range of a compact member, its own tile's engines being another party than its units
(13 R335, 19 R449). -/
def State.pinnedAny (s : State) (la : Nat) : Bool := (s.pinAt la).isSome

/-- An address lies in a pinned range of a compact. -/
def State.pinnedBy (s : State) (num la : Nat) : Bool :=
  match s.pinAt la with
  | some (p, _) => p.compact == num
  | none => false

/-- An offset of the tile's window lies in its own pinned range. -/
def State.ownRange (s : State) (off : Nat) : Bool :=
  s.pins.any fun p => p.tile == s.cur && decide (p.first ≤ off % 0x80000 / 0x10000) &&
    decide (off % 0x80000 / 0x10000 < p.first + p.pages.length)

/-- The hart to which a save area of CTXSAVE belongs: its tile, or the number under which the hart
is kept while its gang is pre-empted; any other number is its own (16 R415). -/
def State.ownerHart (s : State) (n : Nat) : Nat :=
  match s.tiles.find? fun p => p.2.away.contains n with
  | some p => p.1
  | none => n

/-- The place of a hart in its gang, also for what stands in its save area (16 R415). -/
def State.placeOf (s : State) (n : Nat) : Option Place := (s.getTile (s.ownerHart n)).place

/-- The tile that a hart runs on, or, where it has been saved, the one that it left: `n` is a tile
or the number of a save area (11 R293). -/
def State.homeTile (s : State) (n : Nat) : Nat :=
  if n < 2048 then n
  else
    let k := s.ownerHart n
    if k < 2048 then k
    else match s.gangs.findSome? fun g => g.saved.find? (·.store == k) with
      | some h => h.tile
      | none => k

/-- The number under which the hart of a compact's member is kept: that of its tile, or that of its
save area while it is pre-empted (13 R342). -/
def State.hartOfMember (s : State) (num n : Nat) : Nat :=
  match s.gangs.findSome? fun g => g.saved.find? fun h =>
      let m := (s.getTile h.store).member
      h.tile == n && m.phase != .free && m.compact == num with
  | some h => h.store
  | none => n

/-! ### Reading and writing at the home -/

/-- One byte at a local address as its home serves it. -/
def State.readByte (s : State) (la : Nat) : Byte :=
  match regionOf la with
  | .window n off => (s.getTile n).windowByte off
  | .hbm | .appSram | .hostMem => s.homeByte la
  | .launch _ => s.mem.read la
  | .regs _ | .appRegs _ | .unmapped => 0

/-- `n` bytes at a local address, little-endian. -/
def State.readMem (s : State) (la n : Nat) : Nat := readLE s.readByte la n

/-- `n` bytes at a physical address of another device, whose memory is not modelled: they are free
(log 15). -/
def farBytes (seed pa n : Nat) : Nat :=
  readLE (fun a => slice (Config.remoteWord seed (a / 8)) (8 * (a % 8)) 8) pa n

/-- `n` bytes at an address by which the pin table knows it (State.keyOf). -/
def State.readKey (s : State) (key n : Nat) : Nat :=
  if 2 ^ 56 ≤ key then farBytes s.fresh (key - 2 ^ 56) n else s.readMem key n

/-- One byte written at its home by a context. The line has been recalled. -/
def State.writeByte (s : State) (ctx la : Nat) (v : Byte) : State :=
  match regionOf la with
  | .window n off => s.modTile n (·.windowStore off v)
  | .hbm | .appSram | .hostMem =>
    { s with mem := s.mem.write la v, tags := putKey s.tags (sectorOf la) ctx }
  | .launch _ => { s with mem := s.mem.write la v }
  | .regs _ | .appRegs _ | .unmapped => s

/-- `n` bytes of a value written at their home, which recalls the line first (08 R187). A copy in
the shared cache of the application complex is invalidated (17 R436). -/
def State.writeMem (s : State) (ctx la n v : Nat) : State :=
  let s := ((s.recall (lineOf la)).dropApp (lineOf la)).breakRes (lineOf la)
  writeLE (fun s a b => s.writeByte ctx a b) s la v n

/-- A tile's copy of a sector, not owned, takes a write that the tile has made (06 R123). -/
def Tile.updateCopy (t : Tile) (la n v : Nat) : Tile :=
  match t.copyAt la with
  | none => t
  | some l => t.setLine (writeLE (fun (l : CacheLine) a b => l.put a b) l la v n)

/-- A tile reads from its own copy where it holds one, and from the home otherwise (06 R122). -/
def State.tileByte (s : State) (n la : Nat) : Byte :=
  match (s.getTile n).copyAt la with
  | some l => l.byte la
  | none => s.readByte la

/-! ### Lines that the host holds, and lines being copied (17 R432, R433, R444) -/

/-- The host holds a copy of the line, and a write, an atomic or a call waits for its answer to the
snoop (17 R432, R433). -/
def State.snoopWait (s : State) (la : Nat) : Bool := s.snoop.contains (lineOf la)

/-- A read of the line waits for the host's answer to the snoop: not where the host has answered one
since it last read the line, so that its copy is clean (17 R432). -/
def State.snoopRead (s : State) (la : Nat) : Bool :=
  s.snoopWait la && !s.snoopClean.contains (lineOf la)

/-- The line is being copied to spare rows (17 R444). -/
def State.sparing (s : State) (la : Nat) : Bool :=
  match s.service.sparing with
  | some (_, line) => line == lineOf la
  | none => false

/-- A read of the line is held up by the host's copy or by the copying of the line. -/
def State.readStops (s : State) (la : Nat) : Bool := s.snoopRead la || s.sparing la

/-! ### Translation (06 R115–R117, R458) -/

/-- What an access does (06 R126, KIND). -/
inductive AccKind where
  | load | store | fetch | atomic
  deriving DecidableEq, Repr

/-- KIND of MFINFO (06 R126). -/
def AccKind.code : AccKind → Nat
  | .load => 0 | .store => 1 | .fetch => 2 | .atomic => 3

/-- The reason codes (06 R129). -/
def reasonNONCANON : Nat := 1
def reasonNOTVALID : Nat := 2
def reasonBADENTRY : Nat := 3
def reasonLEVEL : Nat := 4
def reasonPERM : Nat := 5
def reasonRETIRED : Nat := 6
def reasonUNMAPPED : Nat := 7
def reasonREGSIZE : Nat := 8
def reasonROWIN : Nat := 9
def reasonNOTSCRATCH : Nat := 10
def reasonBADSEQ : Nat := 11
def reasonPOISON : Nat := 12
def reasonUE : Nat := 13
def reasonBADSAVE : Nat := 14
def reasonUNREACHABLE : Nat := 15
def reasonENGTARGET : Nat := 16

/-- A failed check of an address: its reason, the table level at which a walk stopped, and whether
it belongs to the translation (06 R126–R128). -/
structure AddrFail where
  reason : Nat
  level : Nat
  walk : Bool
  deriving DecidableEq, Repr

/-- A translated address with the attributes of its leaf (06 R116); of a leaf that is marked POISON
also the table level, since that check is the last one (06 R128). -/
structure Xlat where
  pa : Nat
  pvt : Bool
  mt : Bool
  poison : Option Nat
  deriving DecidableEq, Repr

/-- A translated address of tile `n`: its own backing range is its window 0 (19 R449), and another
member's range that lies on another device is that member's window 0 (13 R319, R335). -/
def State.windowFor (s : State) (n : Nat) (x : Xlat) : Xlat :=
  match s.ownBacking n (s.keyOf x.pa) with
  | some la => { x with pa := s.device * 2 ^ 44 + la, pvt := false, mt := false }
  | none =>
    if s.isLocal x.pa then x
    else match s.pinAt (s.keyOf x.pa) with
      | some (p, o) => { x with
          pa := s.device * 2 ^ 44 + 0x10000000000 + p.tile * 0x400000 + o, pvt := false, mt := false }
      | none => x

/-- A translated address of the tile in focus. -/
def State.ownWindow (s : State) (x : Xlat) : Xlat := s.windowFor s.cur x

/-- Where a page-table entry at a physical address stands; none where the table is not in the HBM of
this device (06 R117). -/
def State.tableAt (s : State) (pa : Nat) : Option Nat :=
  if s.isLocal pa && decide (localAddr pa < 0x6000000000) then some (localAddr pa) else none

/-- A page-table entry at a physical address, read at its home at a level of the walk (06 R117,
R119). No rule says what lost data of a table do to the walk: the access takes DATAERR with REASON
13 and that LEVEL (DESIGN CHOICE, log 71). -/
def State.tableEntry (s : State) (pa level : Nat) : Except AddrFail Word :=
  match s.tableAt pa with
  | none => .error ⟨reasonUNMAPPED, level, true⟩
  | some la =>
    if s.lost (sectorOf la) then .error ⟨reasonUE, level, true⟩
    else .ok (BitVec.ofNat 64 (s.readMem la 8))

/-- PA of an entry: bits [55:16] in place (06 R116). -/
def entryPa (e : Word) : Nat := (slice e 16 40).toNat * 0x10000

/-- The entry has a permission bit and so is a leaf. -/
def entryLeaf (e : Word) : Bool := bitAt e 3 || bitAt e 4 || bitAt e 5

/-- Rule 2 of 06 R117 that every level shares. -/
def entryBad (e : Word) : Bool :=
  decide (slice e 56 8 ≠ 0) || decide (slice e 12 4 ≠ 0) || decide (slice e 1 2 ≠ 0) ||
    (bitAt e 4 && !bitAt e 3)

/-- The walk (06 R116, R117, rules 1 to 3): the leaf and whether it maps 512 MiB. -/
def State.walk (s : State) (root va : Nat) : Except AddrFail (Word × Bool) :=
  match s.tableEntry (root + va / 2 ^ 42 % 64 * 8) 1 with
  | .error e => .error e
  | .ok e1 =>
    if !bitAt e1 0 then .error ⟨reasonNOTVALID, 1, true⟩
    else if entryBad e1 || entryLeaf e1 then .error ⟨reasonBADENTRY, 1, true⟩
    else match s.tableEntry (entryPa e1 + va / 2 ^ 29 % 8192 * 8) 2 with
      | .error e => .error e
      | .ok e2 =>
        if !bitAt e2 0 then .error ⟨reasonNOTVALID, 2, true⟩
        else if entryBad e2 || (entryLeaf e2 && decide (slice e2 16 13 ≠ 0)) then
          .error ⟨reasonBADENTRY, 2, true⟩
        else if entryLeaf e2 then .ok (e2, true)
        else match s.tableEntry (entryPa e2 + va / 2 ^ 16 % 8192 * 8) 3 with
          | .error e => .error e
          | .ok e3 =>
            if !bitAt e3 0 then .error ⟨reasonNOTVALID, 3, true⟩
            else if entryBad e3 || !entryLeaf e3 then .error ⟨reasonBADENTRY, 3, true⟩
            else .ok (e3, false)

/-- The local addresses of the entries that a walk reads, in their order. -/
def State.walkReads (s : State) (root va : Nat) : List Nat :=
  let entry (pa : Nat) (next : Word → List Nat) : List Nat :=
    match s.tableAt pa with
    | none => []
    | some la =>
      let e := BitVec.ofNat 64 (s.readMem la 8)
      la :: (if bitAt e 0 && !entryBad e && !entryLeaf e then next e else [])
  entry (root + va / 2 ^ 42 % 64 * 8) fun e1 =>
    entry (entryPa e1 + va / 2 ^ 29 % 8192 * 8) fun e2 =>
      entry (entryPa e2 + va / 2 ^ 16 % 8192 * 8) fun _ => []

/-- The first entry that a walk may not read yet: its line is held up, or its sector holds an error
that nothing has found (17 R432, R433, R444, 18 R448). -/
def State.walkStop (s : State) (root va : Nat) : Option Nat :=
  (s.walkReads root va).find? fun la =>
    s.readStops la || s.injected.any fun p => p.1 == sectorOf la

/-- The checks of a leaf (06 R117, rules 4 to 7), in their order. The DATAERR of a leaf marked
POISON comes after the checks of the physical address (06 R128, step 10, 08 R194). -/
def leafFail (leaf : Word) (level : Nat) (k : AccKind) : Option Nat :=
  if bitAt leaf 9 then some reasonRETIRED
  else if (level = 0 ∧ !bitAt leaf 6) ∨ (level = 1 ∧ k = .fetch ∧ bitAt leaf 6) then some reasonLEVEL
  else if !(match k with
      | .load => bitAt leaf 3
      | .store => bitAt leaf 4
      | .fetch => bitAt leaf 5
      | .atomic => bitAt leaf 3 && bitAt leaf 4) then some reasonPERM
  else if bitAt leaf 10 && k == .store then some reasonPERM
  else none

/-- An entry of a TLB that maps an address for a context (06 R118). -/
def TlbEntry.hit (e : TlbEntry) (ctx va : Nat) : Bool :=
  (e.ctx == ctx || bitAt e.leaf 7) &&
    (if e.big then va / 2 ^ 29 == e.page else va / 2 ^ 16 == e.page)

/-- The leaf that a TLB holds for an address: that of tile `n`, or that of its cluster (06 R118). -/
def State.tlbLeaf (s : State) (n ctx va : Nat) : Option (Word × Bool) :=
  match (s.getTile n).tlb.find? (·.hit ctx va) with
  | some e => some (e.leaf, e.big)
  | none => (s.clusterTlb.find? fun p => p.1 == clusterOf n && p.2.hit ctx va).map fun p =>
      (p.2.leaf, p.2.big)

/-- The root of a context's tables (06 R115). -/
def rootOf (trbase : Word) : Nat := (slice trbase 9 47).toNat * 512

/-- The leaf for an address: from a TLB, or by a walk (06 R118). -/
def State.leafFor (s : State) (n ctx root va : Nat) : Except AddrFail (Word × Bool) :=
  match s.tlbLeaf n ctx va with
  | some l => .ok l
  | none => s.walk root va

/-- The first table entry that keeps a translation waiting (State.walkStop). -/
def State.tableStop (s : State) (n ctx : Nat) (trbase : Word) (level va : Nat) : Option Nat :=
  if level = 2 ∨ !bitAt trbase 0 ∨ va / 2 ^ 48 ≠ 0 ∨ (s.tlbLeaf n ctx va).isSome then none
  else s.walkStop (rootOf trbase) va

/-- The tables read by a translation are examined: errors that nothing has found are found there. -/
def State.detectTables (s : State) (n ctx : Nat) (trbase : Word) (level va : Nat) : State :=
  if level = 2 ∨ !bitAt trbase 0 ∨ va / 2 ^ 48 ≠ 0 ∨ (s.tlbLeaf n ctx va).isSome then s
  else (s.walkReads (rootOf trbase) va).foldl (fun s la => s.detect (sectorOf la)) s

/-- Translation at a level with a context's tables (06 R115–R117). An untranslated access has no
leaf, and no rule gives it a memory type: the model takes MT = 0 and PVT = 0, so that it is
cacheable and not private (DESIGN CHOICE, log 62). Its UNMAPPED is no failed translation (06
R127). -/
def State.translateAt (s : State) (n ctx : Nat) (trbase : Word) (level va : Nat) (k : AccKind) :
    Except AddrFail Xlat :=
  if level = 2 ∨ !bitAt trbase 0 then
    (if va / 2 ^ 56 ≠ 0 then .error ⟨reasonUNMAPPED, 0, false⟩ else .ok ⟨va, false, false, none⟩)
  else if va / 2 ^ 48 ≠ 0 then .error ⟨reasonNONCANON, 0, true⟩
  else match s.leafFor n ctx (rootOf trbase) va with
    | .error e => .error e
    | .ok (leaf, big) =>
      match leafFail leaf level k with
      | some r => .error ⟨r, if big then 2 else 3, true⟩
      | none =>
        .ok ⟨if big then (slice leaf 29 27).toNat * 2 ^ 29 + va % 2 ^ 29
             else entryPa leaf + va % 2 ^ 16, bitAt leaf 11, bitAt leaf 8,
           if bitAt leaf 10 then some (if big then 2 else 3) else none⟩

/-- The failure of an access through a leaf that is marked POISON (06 R117, rule 7). -/
def Xlat.poisonFail (x : Xlat) : Option AddrFail := x.poison.map fun l => ⟨reasonPOISON, l, true⟩

/-- Translation of an access of the tile in focus (06 R115). -/
def State.translate (s : State) (va : Nat) (k : AccKind) : Except AddrFail Xlat :=
  s.translateAt s.cur s.tile.ctx s.tile.cr.trbase s.tile.level va k

/-- Step 4 of 06 R128: a physical address that is unmapped, or a device that is absent. -/
def State.unmappedAt (s : State) (pa : Nat) : Bool :=
  !s.isPresent pa || regionOf (localAddr pa) == .unmapped

/-! ### The error report of a context (16 R411) -/

/-- Word `w` of the context block of a context (16 R411). -/
def State.blockWord (s : State) (ctx w : Nat) : Word := (lookupD s.contexts ctx []).getD w 0

/-- A list with element `i` replaced, zeros filling up to it. -/
def putNth (l : List Word) (i : Nat) (v : Word) : List Word :=
  if i < l.length then setNth l i v else l ++ List.replicate (i - l.length) 0 ++ [v]

def State.setBlockWord (s : State) (ctx w : Nat) (v : Word) : State :=
  { s with contexts := putKey s.contexts ctx (putNth (lookupD s.contexts ctx []) w v) }

/-- The tile that holds a launch HARTID of a context's gangs (14 R348, 16 R411). -/
def State.tileOfLaunch (s : State) (launch : Nat) : Option Nat :=
  (s.tiles.find? fun p => match p.2.place with
    | some pl => pl.launch == launch
    | none => false).map (·.1)

/-- The tile of the hart of a context with a launch HARTID (16 R411). -/
def State.hartOf (s : State) (ctx launch : Nat) : Option Nat :=
  (s.tiles.find? fun p => p.2.ctx == ctx && (match p.2.place with
    | some pl => pl.launch == launch
    | none => false)).map (·.1)

/-- Mailbox lines whose byte 127 a write has covered: each is a trigger (15 R391). -/
def State.mailboxTriggers (s : State) (las : List (Nat × Nat)) : State :=
  s.mailboxes.foldl (fun s m =>
    if las.any (fun p => decide (p.1 ≤ m.line + 127 ∧ m.line + 127 < p.1 + p.2)) then
      s.post .launchTrigger { EventArg.none with n₁ := 1, n₂ := m.slot }
    else s) s

end Sys2Proof.Machine
end

