-- ==== Sys2Proof/Machine/Etch.lean ====
section
/-! DEFINITION. The Etch subset: the checks of an image and the run of a routine on a line
(08 R203–R208), and the operations of the atomic unit (08 R191–R193). -/
namespace Sys2Proof.Machine

/-! ### The atomic unit (08 R191, R192) -/

/-- Sext of a value of `z` bytes, as an integer. -/
def signedAt (z v : Nat) : Int :=
  if 2 ^ (8 * z - 1) ≤ v then (v : Int) - (2 ^ (8 * z) : Nat) else v

/-- Op of the twelve AMO operations at width `z` bytes (08 R191), with the flags of FAdd. -/
def amoOp (op z : Nat) (md : FpMode) (old d : Nat) : Nat × FpFlags :=
  let wrap (i : Nat) : Nat × FpFlags := (i % 2 ^ (8 * z), 0)
  match op with
  | 0 => wrap (old + d)
  | 1 => wrap (old &&& d)
  | 2 => wrap (old ||| d)
  | 3 => wrap (old ^^^ d)
  | 4 => wrap (if signedAt z d < signedAt z old then d else old)
  | 5 => wrap (if signedAt z old < signedAt z d then d else old)
  | 6 => wrap (min old d)
  | 7 => wrap (max old d)
  | 8 => wrap d
  | 9 => fAdd .f32 md old d
  | 10 => (fMax .f32 old d, 0)
  | _ => wrap (if old < d then old + 1 else old)

/-! ### The words of an image (08 R205, R206) -/

/-- OP of an Etch word. -/
def etchOp (u : Word32) : Nat := (slice u 26 6).toNat
def etchD (u : Word32) : Nat := (slice u 21 5).toNat
def etchS1 (u : Word32) : Nat := (slice u 16 5).toNat
def etchS2 (u : Word32) : Nat := (slice u 11 5).toNat
def etchS3 (u : Word32) : Nat := (slice u 6 5).toNat
def etchK (u : Word32) : Nat := (slice u 0 6).toNat

/-- The register fields that an operation uses: D, S1, S2, S3 (08 R206). -/
def etchUses (op : Nat) : Bool × Bool × Bool × Bool :=
  if op = 0 ∨ op = 22 ∨ op = 23 then (true, true, false, false)
  else if op = 1 then (true, false, false, false)
  else if op = 21 then (true, true, true, true)
  else if op = 24 then (false, true, false, false)
  else if op = 25 then (false, false, false, false)
  else (true, true, true, false)

/-- Every field that the operation does not use is zero (check 2 of 08 R208). -/
def etchReservedZero (u : Word32) : Bool :=
  let op := etchOp u
  let (d, s1, s2, s3) := etchUses op
  (d || etchD u == 0) && (s1 || etchS1 u == 0) &&
    (op == 1 ||
      ((s2 || etchS2 u == 0) && (s3 || etchS3 u == 0) &&
        (if op = 24 then true
         else if op = 22 ∨ op = 23 then decide (etchK u < 2)
         else etchK u == 0)))

/-- Every register field in use names a register (check 3 of 08 R208). -/
def etchRegsOk (u : Word32) : Bool :=
  let (d, s1, s2, s3) := etchUses (etchOp u)
  (!d || decide (etchD u < 24)) && (!s1 || decide (etchS1 u < 24)) &&
    (!s2 || decide (etchS2 u < 24)) && (!s3 || decide (etchS3 u < 24))

/-- A check applied word by word in ascending number: the first that fails. -/
def firstFail (l : List Word32) (k : Nat) (ok : Nat → Word32 → Bool) : Option Nat :=
  match l with
  | [] => none
  | u :: rest => if ok k u then firstFail rest (k + 1) ok else some k

/-- The checks of an image of LEN words, in their order: the code of the first that fails and the
index of the failing word (08 R208, R213). -/
def etchCheck (image : List Word32) (len : Nat) : Option (Nat × Nat) :=
  if len < 1 ∨ 32 < len then some (6, 0)
  else
    let ws := image.take len
    match firstFail ws 0 (fun _ u => decide (etchOp u ≤ 25)) with
    | some k => some (1, k)
    | none => match firstFail ws 0 (fun _ u => etchReservedZero u) with
      | some k => some (2, k)
      | none => match firstFail ws 0 (fun _ u => etchRegsOk u) with
        | some k => some (3, k)
        | none => match firstFail ws 0 (fun k u =>
            etchOp u != 24 || (decide (1 ≤ etchK u ∧ etchK u ≤ 31) &&
              decide (k + etchK u + 2 ≤ len))) with
          | some k => some (4, k)
          | none => if (ws.getD (len - 1) 0 |> etchOp) = 25 then none else some (5, 0)

/-! ### Running a routine (08 R206, R207) -/

/-- The Etch registers: l0–l15 and e0–e7 (08 R204), the flags, and the sectors written. -/
structure EtchRun where
  regs : List Word
  flags : FpFlags
  wrote0 : Bool
  wrote1 : Bool
  deriving DecidableEq, Repr

def EtchRun.reg (r : EtchRun) (n : Nat) : Word := r.regs.getD n 0

/-- A destination written; a word of the line marks its sector (08 R207). -/
def EtchRun.put (r : EtchRun) (n : Nat) (v : Word) (f : FpFlags) : EtchRun :=
  { regs := setNth r.regs n v
    flags := r.flags ||| f
    wrote0 := r.wrote0 || decide (n < 8)
    wrote1 := r.wrote1 || decide (8 ≤ n ∧ n < 16) }

/-- The effect of one Etch instruction other than ESKIPZ and EEND (08 R206). -/
def etchStep (md : FpMode) (u : Word32) (r : EtchRun) : EtchRun :=
  let a := r.reg (etchS1 u)
  let b := r.reg (etchS2 u)
  let d := etchD u
  let lowHalf (p : Nat × FpFlags) : EtchRun :=
    r.put d (setSlice (r.reg d) 0 32 (BitVec.ofNat 32 p.1)) p.2
  let fa := (slice a 0 32).toNat
  let fb := (slice b 0 32).toNat
  match etchOp u with
  | 0 => r.put d a 0
  | 1 => r.put d ((slice u 0 16).signExtend 64) 0
  | 2 => r.put d (a + b) 0
  | 3 => r.put d (a - b) 0
  | 4 => r.put d (a &&& b) 0
  | 5 => r.put d (a ||| b) 0
  | 6 => r.put d (a ^^^ b) 0
  | 7 => r.put d (a <<< (slice b 0 6).toNat) 0
  | 8 => r.put d (a >>> (slice b 0 6).toNat) 0
  | 9 => r.put d (a.sshiftRight (slice b 0 6).toNat) 0
  | 10 => r.put d (if b.toInt < a.toInt then b else a) 0
  | 11 => r.put d (if a.toInt < b.toInt then b else a) 0
  | 12 => r.put d (if b.toNat < a.toNat then b else a) 0
  | 13 => r.put d (if a.toNat < b.toNat then b else a) 0
  | 14 => lowHalf (fAdd .f32 md fa fb)
  | 15 => lowHalf (fMin .f32 fa fb, 0)
  | 16 => lowHalf (fMax .f32 fa fb, 0)
  | 17 => r.put d (if FVal.lt false (ElemType.f32.value fa) (ElemType.f32.value fb) then 1 else 0) 0
  | 18 => r.put d (if a = b then 1 else 0) 0
  | 19 => r.put d (if a.toInt < b.toInt then 1 else 0) 0
  | 20 => r.put d (if a.toNat < b.toNat then 1 else 0) 0
  | 21 => r.put d (if a ≠ 0 then b else r.reg (etchS3 u)) 0
  | 22 => r.put d (setSlice (r.reg d) (32 * (etchK u % 2)) 32 (slice a 0 32)) 0
  | 23 => r.put d ((slice a (32 * (etchK u % 2)) 32).setWidth 64) 0
  | _ => r

/-- The words from the present one on, run in order; a skip drops the next K words. -/
def etchRunWords (md : FpMode) : List Word32 → Nat → EtchRun → EtchRun
  | [], _, r => r
  | _ :: rest, skip + 1, r => etchRunWords md rest skip r
  | u :: rest, 0, r =>
    if etchOp u = 25 then r
    else if etchOp u = 24 then
      etchRunWords md rest (if r.reg (etchS1 u) = 0 then etchK u else 0) r
    else etchRunWords md rest 0 (etchStep md u r)

/-- A call on a held line of 16 words (08 R207). -/
def etchCall (md : FpMode) (image : List Word32) (line ops : List Word) : EtchRun :=
  etchRunWords md image 0 ⟨line ++ ops.take 4 ++ List.replicate 4 0, 0, false, false⟩

end Sys2Proof.Machine
end

