-- ==== Sys2Proof/Machine/Net.lean ====
section
/-! DEFINITION. The Dendan fabric as a device sees it: coordinates, boxes of tenants, the choice of
a path, detours, and packets at the egress of a port (14 R358–R367). -/
namespace Sys2Proof.Machine

/-! ### Coordinates and boxes (01 R20, 14 R358, R359) -/

/-- The coordinates A, B, C and D of a device (01 R20). -/
def coordOf (device : Nat) : List Nat := [device % 4, device / 4 % 4, device / 16 % 12, device / 192]

/-- The sizes of the dimensions. -/
def dimSize (d : Nat) : Nat := [4, 4, 12, 16].getD d 1

/-- C and D are rings (14 R359). -/
def isRing (d : Nat) : Bool := decide (2 ≤ d)

/-- The device at coordinates. -/
def deviceAt (c : List Nat) : Nat :=
  ((c.getD 3 0 * 12 + c.getD 2 0) * 4 + c.getD 1 0) * 4 + c.getD 0 0

def quadList (q : Nat × Nat × Nat × Nat) : List Nat := [q.1, q.2.1, q.2.2.1, q.2.2.2]

/-- The box of a tenant; one to which no box has been given is not confined (log 10). -/
def State.boxOf (s : State) (tenant : Nat) : List Nat × List Nat :=
  match s.boxes.find? (·.tenant == tenant) with
  | some b => (quadList b.lo, quadList b.hi)
  | none => ([0, 0, 0, 0], [3, 3, 11, 15])

/-- A target device lies outside the box of the sending tenant (14 R358). -/
def State.outOfBox (s : State) (tenant device : Nat) : Bool :=
  let (lo, hi) := s.boxOf tenant
  !((coordOf device).zipIdx.all fun p => decide (lo.getD p.2 0 ≤ p.1 ∧ p.1 ≤ hi.getD p.2 0))

/-- The box holds the whole ring of a dimension. -/
def State.wholeRing (s : State) (tenant d : Nat) : Bool :=
  let (lo, hi) := s.boxOf tenant
  isRing d && lo.getD d 1 == 0 && hi.getD d 0 + 1 == dimSize d

/-! ### Paths (14 R359–R361) -/

/-- The hops in one dimension, and whether they go in the positive direction. -/
def State.hopsIn (s : State) (tenant : Nat) (wrap : Bool) (d x y : Nat) : Nat × Bool :=
  if wrap && s.wholeRing tenant d then
    let n := dimSize d
    let fwd := (y + n - x) % n
    if fwd ≤ n - fwd then (fwd, true) else (n - fwd, false)
  else if x ≤ y then (y - x, true) else (x - y, false)

/-- A port: A+, A−, B+, B−, C+, C−, D+, D− (log 10). -/
def portOf (d : Nat) (positive : Bool) : Nat := 2 * d + if positive then 0 else 1

/-- The order in which a packet corrects the dimensions: A, B, C, D, but those in which it has been
detoured last (14 R359, R367). -/
def dimOrder (late : List Nat) : List Nat := ([0, 1, 2, 3].filter (!late.contains ·)) ++ late

/-- The next hop of a path in dimension order: its dimension and port. -/
def State.hopTo (s : State) (tenant : Nat) (wrap : Bool) (late : List Nat) (src dst : Nat) :
    Option (Nat × Nat) :=
  (dimOrder late).findSome? fun d =>
    let (h, pos) := s.hopsIn tenant wrap d ((coordOf src).getD d 0) ((coordOf dst).getD d 0)
    if h = 0 then none else some (d, portOf d pos)

/-- The hops of a path in dimension order. -/
def State.hopsTo (s : State) (tenant : Nat) (wrap : Bool) (src dst : Nat) : Nat :=
  ((coordOf src).zip (coordOf dst)).zipIdx.foldl (fun n p =>
    n + (s.hopsIn tenant wrap p.2 p.1.1 p.1.2).1) 0

/-- The intermediate device of a Valiant path: a device of the tenant's box that is not
architectural (14 R360). -/
def State.intermediate (s : State) (tenant : Nat) : Nat :=
  let (lo, hi) := s.boxOf tenant
  let v := Config.intermediate s.fresh
  let pick (d div : Nat) : Nat :=
    let l := lo.getD d 0
    l + v / div % (hi.getD d 0 + 1 - l)
  deviceAt [pick 0 1, pick 1 4, pick 2 16, pick 3 192]

def State.port (s : State) (p : Nat) : Port := vget s.ports p Port.reset

/-- The cost of a path: the packets queued at the port of its first hop, times its hops (14
R361). -/
def State.pathCost (s : State) (first : Option (Nat × Nat)) (hops : Nat) : Nat :=
  match first with
  | some (_, p) => (s.port p).waiting.length * hops
  | none => 0

/-- The path that the source gives a packet: the intermediate device of the Valiant candidate where
its cost is strictly lower than that of the minimal path. A packet of the ORDERED class takes the
minimal path (14 R361). -/
def State.choosePath (s : State) (cls : PacketClass) (ordered : Bool) (tenant target : Nat) :
    Option Nat :=
  if ordered || cls == .ctl || cls == .bsp then none
  else
    let mid := s.intermediate tenant
    let minimal := s.pathCost (s.hopTo tenant true [] s.device target)
      (s.hopsTo tenant true s.device target)
    let valiant := s.pathCost
      ((s.hopTo tenant false [] s.device mid).or (s.hopTo tenant false [] mid target))
      (s.hopsTo tenant false s.device mid + s.hopsTo tenant false mid target)
    if valiant < minimal then some mid else none

/-- The device behind a port, where there is one. -/
def State.behindPort (s : State) (p : Nat) : Option Nat :=
  let d := p / 2
  let x := (coordOf s.device).getD d 0
  let n := dimSize d
  let y := if p % 2 = 0 then (if x + 1 < n then some (x + 1) else if isRing d then some 0 else none)
    else if 0 < x then some (x - 1) else if isRing d then some (n - 1) else none
  y.map fun y => deviceAt ((coordOf s.device).set d y)

/-- A hop through a port crosses a link that is down or enters a device that has failed
(14 R367). -/
def State.blockedPort (s : State) (p : Nat) : Bool :=
  !(s.port p).up || (match s.behindPort p with
    | none => true
    | some d => !s.peers.contains d)

/-- The hop through a port crosses the dateline of its ring (14 R359). -/
def State.crossesDateline (s : State) (p : Nat) : Bool :=
  let d := p / 2
  isRing d && (coordOf s.device).getD d 0 == (if p % 2 = 0 then dimSize d - 1 else 0)

/-- The steps of a detour: in A to a XOR 1, then in B to b XOR 1 (14 R367), where the packet has
taken none yet in that dimension and the device lies in its tenant's box (14 R358): dimension and
port. -/
def State.detourHop (s : State) (k : Packet) : Option (Nat × Nat) :=
  ([0, 1].map fun d => (d, portOf d ((coordOf s.device).getD d 0 % 2 == 0))).find? fun q =>
    !k.late.contains q.1 && !s.blockedPort q.2 && (match s.behindPort q.2 with
      | some x => !s.outOfBox k.tenant x
      | none => false)

/-- Where a packet goes at this device: it has reached its target, leaves through a port, or is
stopped before a port. -/
inductive Route where
  | here
  | through (p : Nat) (k : Packet)
  | stopped (p : Nat)
  deriving DecidableEq, Repr

/-- The next hop of a packet, with its virtual channel: a minimal packet uses the second one of its
class once it crosses the dateline of a dimension, and the first again in the next dimension; a
Valiant packet uses it in its second phase (14 R359–R362, R367). -/
def State.route (s : State) (k : Packet) : Route :=
  let k := if k.mid = some s.device then { k with mid := none, one := true } else k
  let along (d p : Nat) (k : Packet) : Route :=
    .through p { k with
      dim := d
      one := if k.valiant then k.one else (d == k.dim && k.one) || s.crossesDateline p }
  match s.hopTo k.tenant (!k.valiant) k.late s.device (k.mid.getD k.target) with
  | none => .here
  | some (d, p) =>
    if !s.blockedPort p then along d p k
    else match s.detourHop k with
      | some (d, q) => along d q { k with late := k.late ++ [d] }
      | none => .stopped p

/-- The virtual channel of a class and half at a stage of merging (14 R362, R366). -/
def mergedVc (stage vc : Nat) : Nat :=
  let vc := if 1 ≤ stage ∧ vc = 7 then 6 else vc
  let vc := if 2 ≤ stage ∧ (vc = 2 ∨ vc = 3) then vc + 2 else vc
  if 3 ≤ stage ∧ vc = 6 then 4 else vc

/-- The virtual channels of a port (14 R362). -/
def vcOf (cls : PacketClass) (one : Bool) : Nat :=
  let b := if one then 1 else 0
  match cls with
  | .req => b
  | .fwd => 2 + b
  | .rsp => 4 + b
  | .ctl => 6
  | .bsp => 7

/-- The error bank of a port (16 R423): two ports a die. -/
def portBank (p : Nat) : Nat := 0x4000 + p / 2 * 1024 + p % 2

def State.setPort (s : State) (p : Nat) (f : Port → Port) : State :=
  { s with ports := vset s.ports p (f (s.port p)) }

/-! ### Packets at an egress -/

/-- The number of the input port of packets that the device itself sends. -/
def ownInput : Nat := 8

/-- A packet joins the egress of its next hop or of its detour, or is discarded where it stops, with
a record in the error bank of the port; the flag says that it was discarded. At its target it leaves
the fabric, and acts as the events of its kind say (14 R364, R367). -/
def State.joinEgress (s : State) (k : Packet) : State × Bool :=
  match s.route k with
  | .through p k => (s.setPort p fun x => { x with waiting := x.waiting ++ [k] }, false)
  | .here => (s, false)
  | .stopped p => (s.record (portBank p) 8 true false 0 p, true)

/-- A packet of this device: class, path, the request it belongs to, tenant and target. -/
def State.ownPacket (s : State) (cls : PacketClass) (request : Bool) (mid : Option Nat)
    (tile req tenant target : Nat) : Packet :=
  { cls := cls, tenant := tenant, input := ownInput, request := request, tile := tile, req := req
    source := s.device, target := target, mid := mid, valiant := mid.isSome, late := [], dim := 0
    one := false, inVc := vcOf cls false, rows := 3, age := 0, waited := s.cc, arrived := s.cc }

/-- A refusal returns to the source of a request: to a tile of this device, or on RSP to another
device (14 R358, R367). -/
def State.refuse (s : State) (k : Packet) (code : Nat) : State :=
  if !k.request then s
  else if k.input = ownInput then
    s.post .refusalArrival { EventArg.none with tile := k.tile, n₁ := k.req, n₂ := code }
  else (s.joinEgress (s.ownPacket .rsp false none 0 0 k.tenant k.source)).1

/-- A packet goes on; the discard of a request returns a refusal for a blocked path (14 R367). -/
def State.enqueue (s : State) (k : Packet) : State :=
  match s.joinEgress k with
  | (s, true) => s.refuse k 5
  | (s, false) => s

/-- A packet of this device leaves for another one; `request` names the request of a tile that it
belongs to (14 R361). -/
def State.sendPacket (s : State) (cls : PacketClass) (ordered : Bool) (tile req tenant target : Nat) :
    State :=
  let k := s.ownPacket cls (cls == .req) (s.choosePath cls ordered tenant target) tile req tenant target
  { s with fresh := s.fresh + 1 }.enqueue k

/-- Control or hatch packets, ORDERED, leave for a list of devices (14 R361, R362). -/
def State.sendOrdered (s : State) (cls : PacketClass) (tenant : Nat) (ds : List Nat) : State :=
  ds.eraseDups.foldl (fun s d =>
    if d = s.device then s else s.sendPacket cls true s.cur 0 tenant d) s

/-- The packet of a request of this device has not left it. -/
def State.inPort (s : State) (req : Nat) : Bool :=
  s.ports.toList.any fun p => p.waiting.any fun k => k.input == ownInput && k.request && k.req == req

/-! ### The receive buffer of a port (14 R366) -/

/-- The rows that a stage reserves: six for each virtual channel that is left. -/
def reservedRows (stage : Nat) : Nat :=
  if stage = 0 then 48 else if stage = 1 then 42 else if stage = 2 then 30 else 24

/-- The rows of input port `p` that packets of virtual channel `vc` hold. -/
def State.rowsUsed (s : State) (p vc : Nat) : Nat :=
  ((s.ports.toList.flatMap (·.waiting)).filter fun k =>
    k.input == p && mergedVc (s.port p).stage k.inVc == vc).foldl (fun n k => n + k.rows) 0

/-- The receive buffer of port `p` has room for `n` rows of a virtual channel: its reserve of six
rows and those that no channel has reserved (14 R366). -/
def State.hasRows (s : State) (p vc n : Nat) : Bool :=
  let stage := (s.port p).stage
  let vc := mergedVc stage vc
  let excess (c : Nat) : Nat := s.rowsUsed p c + (if c = vc then n else 0) - 6
  excess vc == 0 ||
    decide (((List.range 8).map excess).sum ≤ (s.port p).rows - reservedRows stage)

end Sys2Proof.Machine
end

