-- ==== Sys2Proof/Machine/RegSpace.lean ====
section
/-! DEFINITION. Reads of the register space: the launch window, the control and engine registers,
and those of the application complex (06 R113, 16 R411). Writes are steps of their own. -/
namespace Sys2Proof.Machine

/-! ### Gangs by launch HARTID (14 R348, 20 R454, R455) -/

/-- The tile that holds the hart of a launch HARTID, and the tile's hart is placed there. -/
def State.tileOf (s : State) (launch : Nat) : Option Nat := s.tileOfLaunch launch

/-- The gang that holds a launch HARTID: by the place of a running hart, or by a save area. -/
def State.gangOf (s : State) (launch : Nat) : Option Gang :=
  match s.tileOf launch with
  | some n =>
    (match (s.getTile n).place with
     | some pl => s.gangs.find? fun g => g.lid == pl.lid && g.idx == pl.gang
     | none => none)
  | none => s.gangs.find? fun g => g.saved.any fun p => p.launch == launch

/-- A launch HARTID with the device field 0xFFF names this device (14 R350). -/
def State.launchId (s : State) (v : BitVec 23) : Nat :=
  if slice v 11 12 = 0xFFF#12 then s.device * 2048 + (slice v 0 11).toNat else v.toNat

/-- STATE of PREQ (20 R454): of the gang that holds the launch HARTID as it stands there. -/
def State.preqState (s : State) : Nat :=
  match s.gangOf (slice s.preq 0 23).toNat with
  | none => 0
  | some g => match g.state with
    | .running => 1
    | .stopping => 2
    | .held => 3
    | .requeued => 4
    | .holding => 0

/-! ### Images of channels and of the injection queue (14 R459) -/

/-- Word `w` of an occupied entry: header, data, and the destination word for the queue. -/
def entryWord (hdr : Word) (data : Vec) (dest : Word) (w : Nat) : Word :=
  if w = 0 then hdr else if w ≤ 8 then slice data (64 * (w - 1)) 64 else if w = 9 then dest else 0

/-- A word of the images of a tile, at byte offset `off` (14 R459, 16 R411). -/
def Tile.imageWord (t : Tile) (off : Nat) : Word :=
  let w := off % 128 / 8
  if off < 0x4000 then
    match (vget t.channels (off / 2048) Channel.closed).entries[off % 2048 / 128]? with
    | some m => entryWord m.hdr m.data 0 w
    | none => 0
  else
    match t.inj[(off - 0x4000) / 128]? with
    | some e => entryWord e.msg.hdr e.msg.data (e.dest &&& 0x3FFFFFF) w
    | none => 0

/-! ### Reads -/

/-- LSTAT of a window line (15 R375). -/
def State.lineStat (s : State) (line : Nat) : Word := lookupD s.lstat line 0

/-- An aligned 8-byte read of the launch window (15 R374, R375). -/
def State.readLaunch (s : State) (off : Nat) : Word :=
  if off % 128 = 120 then s.lineStat (off / 128)
  else BitVec.ofNat 64 (readLE s.mem.read (0x20000000000 + off) 8)

/-- An aligned 8-byte read of a register (16 R411, 18 R447, 20 R454). The spec gives no value for
a read of ERRCLR, CTXKILL and DOORBELL: it is free (log 14). -/
def State.readReg (s : State) (off : Nat) : Word :=
  match regName off with
  | some (.binding l) => lookupD s.bindings l 0
  | some (.bank id w) =>
    let b := s.bank id
    if w = 0 then b.w0 else if w = 1 then b.w1 else if w = 2 then b.w2 else Config.freeWord s.fresh
  | some (.slicemap k i) =>
    (vget (vget s.slicemap k (Vector.replicate 64 0)) i 0).setWidth 64
  | some .ctxkill => Config.freeWord s.fresh
  | some (.resetvec k) => vget s.resetvec k 0
  | some .errinj => 0
  | some .preq => 0#29 ++ BitVec.ofNat 3 s.preqState ++ 0#9 ++ slice s.preq 0 23
  | some (.block ctx w) => s.blockWord ctx w
  | some (.channelImage n o) => (s.getTile n).imageWord o
  | some (.doorbell _) => Config.freeWord s.fresh
  | none => 0

/-- A read of a control register of the application complex (17 R437). -/
def State.readAppReg (s : State) (off : Nat) : Word := lookupD s.appRegs (off / 8) 0

/-- The level that may reach a register (16 R411): SYS and FIRM, FIRM alone, or SYS of the context
and FIRM. -/
def regLevelOk (off level ctx : Nat) : Bool :=
  match regName off with
  | some (.binding _) | some (.bank _ _) => decide (1 ≤ level)
  | some (.block c _) => level == 2 || (level == 1 && c == ctx)
  | some (.slicemap _ _) | some .ctxkill | some (.resetvec _) | some .errinj | some .preq
  | some (.channelImage _ _) | some (.doorbell _) => level == 2
  | none => true

end Sys2Proof.Machine
end

