-- ==== Sys2Proof/Machine/Access.lean ====
section
/-! DEFINITION. Accesses of a tile: the checks of an address in their order, requests and what
their home does with them, responses, releases and acquires (06 R126–R131, 07, 08 R187–R201). -/
namespace Sys2Proof.Machine

/-! ### Checks of an address (06 R113, R124–R128) -/

/-- The form of an access, for the checks that depend on it. -/
structure Form where
  kind : AccKind
  /-- The address is a multiple of this. -/
  align : Nat
  /-- LD or SD of eight bytes (06 R113). -/
  plain8 : Bool := false
  /-- A VST, which the launch window accepts (06 R113). -/
  vst : Bool := false
  /-- An F/E instruction (06 R138). -/
  fe : Bool := false
  /-- A load by name: a failed check behind the translation is a LOADFAULT (06 R127). -/
  loads : Bool := false
  /-- CCLEAN, CFLUSH or CINV (06 R125). -/
  maint : Bool := false
  /-- RLD or RST: a target outside the tenant's box is refused otherwise (14 R358). -/
  net : Bool := false
  deriving DecidableEq, Repr

/-- MFINFO of a report (06 R126). -/
def mfinfoOf (level src kind reason : Nat) : Word :=
  0#50 ++ BitVec.ofNat 2 level ++ BitVec.ofNat 2 src ++ BitVec.ofNat 2 kind ++ BitVec.ofNat 8 reason

/-- The cause of a failed check (06 R127). -/
def Form.cause (f : Form) (e : AddrFail) : Cause :=
  if e.reason = reasonPOISON ∨ e.reason = reasonUE then .dataerr
  else match f.kind with
    | .fetch => .fetchfault
    | .load => .loadfault
    | .store => .storefault
    | .atomic => if f.loads && !e.walk then .loadfault else .storefault

/-- The trap of a failed check at an address (06 R126). -/
def State.addrTrap (s : State) (f : Form) (va : Word) (e : AddrFail) : Trap :=
  ⟨f.cause e, va, some (mfinfoOf e.level s.who.source f.kind.code e.reason)⟩

/-- A pinned range of another member than the tile in focus (13 R335). -/
def State.pinnedByOther (s : State) (la : Nat) : Bool := s.pinnedFor s.cur la

/-- The access of a compact member's own unit reaches its pinned range in TRANSFER or BARRIER, at a
window-0 address: SLOTVIOL code 5 (13 R329, 19 R449). -/
def State.stepViolation (s : State) (f : Form) (pa : Nat) : Bool :=
  (s.tile.member.phase == .transfer || s.tile.member.phase == .barrier) && f.kind != .fetch &&
    s.isLocal pa && (match regionOf (localAddr pa) with
      | .window n off => n == s.cur && decide (windowOf off = 0) && s.ownRange off
      | .hbm | .launch _ | .regs _ | .appSram | .appRegs _ | .hostMem | .unmapped => false)

/-- TVAL of SLOTVIOL (13 R329). -/
def slotviolTval (code : Nat) (w : Word32) : Word := 0#28 ++ BitVec.ofNat 4 code ++ w

/-- The tenant of the context (14 R357). -/
def Tile.tenant (t : Tile) : Nat := (slice t.cr.netctx 0 6).toNat

/-- Steps 4 to 8 of 06 R128 on a physical address; none when all pass. -/
def State.placeFail (s : State) (f : Form) (level ctx tenant pa : Nat) : Option AddrFail :=
  let la := localAddr pa
  let own := s.isLocal pa
  let fail (r : Nat) : Option AddrFail := some ⟨r, 0, false⟩
  if s.unmappedAt pa then fail reasonUNMAPPED
  else if !own && !f.net && s.outOfBox tenant (pa / 2 ^ 44) then fail reasonUNMAPPED
  else match regionOf la with
    | .unmapped => fail reasonUNMAPPED
    | .launch _ =>
      if f.kind = .fetch then fail reasonUNMAPPED
      else if f.plain8 || f.vst then none else fail reasonREGSIZE
    | .regs off =>
      if f.kind = .fetch then fail reasonUNMAPPED
      else if !regLevelOk off level ctx then fail reasonLEVEL
      else if f.plain8 then none else fail reasonREGSIZE
    | .appRegs _ =>
      if level ≠ 2 then fail reasonLEVEL
      else if f.plain8 then none else fail reasonREGSIZE
    | .hbm | .appSram | .hostMem => if f.fe then fail reasonNOTSCRATCH else none
    | .window n off =>
      let w := windowOf off
      if 1 ≤ w && (f.kind == .atomic || f.maint || (f.kind == .store && w != 7)) then
        fail reasonROWIN
      else if f.fe && !own then fail reasonNOTSCRATCH
      else if own && !(s.getTile n).scratch (off % 0x80000 / 0x10000) then
        fail reasonNOTSCRATCH
      else none

/-- With the choice `walks`, a translated address that no TLB maps waits for a walk (06 R118, log
6); an address outside the 48 bits fails without one. -/
def State.missWaits (s : State) (level va : Nat) : Bool :=
  s.choice.walks && level != 2 && bitAt s.tile.cr.trbase 0 && decide (va / 2 ^ 48 = 0) &&
    (s.tlbLeaf s.cur s.tile.ctx va).isNone

/-- The checks of 06 R128 on an address of the tile in focus, in their order, for an access at a
level. -/
def State.checkAt (s : State) (level : Nat) (f : Form) (va : Word) : Except Trap Xlat :=
  if f.align ≠ 0 ∧ va.toNat % f.align ≠ 0 then
    .error ⟨.misalign, va, some (mfinfoOf 0 s.who.source f.kind.code 0)⟩
  else if s.missWaits level va.toNat then .error ⟨.waits, va, none⟩
  else match s.tableStop s.cur s.tile.ctx s.tile.cr.trbase level va.toNat with
  | some la => .error ⟨.waits, va, some (BitVec.ofNat 64 la)⟩
  | none =>
    match s.translateAt s.cur s.tile.ctx s.tile.cr.trbase level va.toNat f.kind with
    | .error e => .error (s.addrTrap f va e)
    | .ok x =>
      let x := s.ownWindow x
      match s.placeFail f level s.tile.ctx s.tile.tenant x.pa with
      | some e => .error (s.addrTrap f va e)
      | none =>
        if s.stepViolation f x.pa then .error ⟨.slotviol, slotviolTval 5 s.ir, none⟩ else
        if (f.kind = .store ∨ (f.kind = .atomic ∧ !f.loads)) ∧ s.isLocal x.pa ∧
            s.pinnedByOther (localAddr x.pa) then
          .error ⟨.compactwr, va, some (mfinfoOf 0 s.who.source f.kind.code 0)⟩
        else match x.poisonFail with
          | some e => .error (s.addrTrap f va e)
          | none => .ok x

/-- The checks of an access of the unit that executes. -/
def State.check (s : State) (f : Form) (va : Word) : Except Trap Xlat :=
  s.checkAt s.tile.level f va

/-- Every element checked in ascending index before any is performed (06 R128, R137). -/
def State.checkAll (s : State) (f : Form) : List Word → Except Trap (List Xlat)
  | [] => .ok []
  | va :: rest =>
    match s.check f va with
    | .error e => .error e
    | .ok x => match s.checkAll f rest with
      | .error e => .error e
      | .ok xs => .ok (x :: xs)

/-! ### Requests -/

/-- Every piece has been performed at its home. -/
def Req.performed (q : Req) : Bool := q.accs.all (·.done)

/-- The request reads: a load, an atomic or a call. -/
def Req.reads (q : Req) : Bool := q.kind != .store

/-- The request holds a ticket: an atomic or a call (08 R195). -/
def Req.ticketed (q : Req) : Bool := q.kind != .load && q.kind != .store

/-- The request is an access of a unit itself and not one made for it (06 R458, 07 R153). -/
def Req.by (q : Req) (u : UnitId) : Bool := q.unit == u && q.engine.isNone

/-- Two requests are of one party (07 R153). -/
def Req.sameParty (p q : Req) : Bool := p.unit == q.unit && p.engine.isSome == q.engine.isSome

/-- The request writes: a store, an atomic or a call. -/
def Req.writes (q : Req) : Bool := q.kind != .load

/-- Two requests touch one 8-byte word (07 R154). -/
def Req.meets (p q : Req) : Bool := p.accs.any fun a => q.accs.any fun b => a.pa / 8 == b.pa / 8

/-- A request touches a line. -/
def Req.touches (q : Req) (line : Nat) : Bool := q.accs.any fun a => lineOf (localAddr a.pa) == line

def State.req (s : State) (id : Nat) : Option Req := s.tile.reqs.find? (·.id == id)

def State.setReq (s : State) (q : Req) : State :=
  s.onTile fun t => { t with reqs := t.reqs.map fun p => if p.id = q.id then q else p }

def State.dropReq (s : State) (id : Nat) : State :=
  s.onTile fun t => { t with reqs := t.reqs.filter (·.id != id) }

/-- Pieces of two accesses lie in one 8-byte word (07 R154). -/
def accsMeet (p q : List Acc) : Bool := p.any fun a => q.any fun b => a.pa / 8 == b.pa / 8

/-- An earlier request of the same unit has to be performed first: one on the same word
(07 R160), or, for a write, one that reads (07 R156). A load also waits for the response of an
earlier atomic on its word (07 R183). An RLD or RST under way stands in the program order of the
execute hart like a load or a store; no rule says so of the RST, which 07 R179 calls a command
(DESIGN CHOICE, log 63). -/
def State.behind (s : State) (q : Req) : Bool :=
  (s.tile.reqs.any fun p => decide (p.id < q.id) && p.sameParty q &&
    ((!p.performed && (p.meets q || (q.writes && p.reads))) ||
      (p.ticketed && q.kind == .load && p.meets q))) ||
  (q.by .eh && s.tile.remote.any fun r => decide (r.id < q.id) &&
    (accsMeet r.accs q.accs || (q.writes && !r.write)))

/-- The number of the first call of the unit that executes which a routine fetch fault has parked
(08 R198). -/
def State.faultedCall (s : State) : Option Nat :=
  (s.tile.reqs.find? fun p => p.by s.who && p.parked == some .routineFault).map (·.id)

/-- Request `id` of the unit that executes holds up an instruction at issue. With `replays` the
instruction replays a call parked by a routine fetch fault (08 R211): it does not wait for that
call, nor for what came after it. -/
def State.holdsUp (s : State) (replays : Bool) (id : Nat) : Bool :=
  !replays || (match s.faultedCall with
    | some k => decide (id < k)
    | none => true)

/-- What the unit that executes still has under way and a read or write of these words at issue
has to wait for: an access of its own to one of them, and, before a write, every read (07 R156,
R160). -/
def State.wordsBusy (s : State) (pas : List Nat) (write replays : Bool) : Bool :=
  let counts (id : Nat) : Bool := s.holdsUp replays id
  let here (accs : List Acc) : Bool := accs.any fun a => pas.any fun pa => a.pa / 8 == pa / 8
  (s.tile.reqs.any fun p => p.by s.who && !p.performed && counts p.id &&
    ((write && p.reads) || here p.accs)) ||
  ((s.who == .eh || s.who == .vs) && s.tile.remote.any fun r => counts r.id &&
    ((write && !r.write) || here r.accs))

/-- The slice that a request goes to: the home of its first line. -/
def State.homeSlice (s : State) (accs : List Acc) : Nat × Nat :=
  match accs with
  | a :: _ => s.homeOf (lineOf (localAddr a.pa))
  | [] => (4, 0)

def State.sliceOf (s : State) (q : Req) : Nat × Nat := s.homeSlice q.accs

/-- The image of a routine that the slice of a call has cached (08 R210). -/
def State.imageOf (s : State) (q : Req) (id : Nat) : Option EtchImage :=
  s.images.find? fun m => m.home == s.sliceOf q && m.ctx == q.ctx && m.id == id

/-- A verified image is cached at a slice, which keeps 256 of them: the oldest leaves (08 R210). -/
def State.cacheImage (s : State) (m : EtchImage) : State :=
  let here := (s.images.filter fun x => x.home == m.home).take 255
  { s with images := m :: (here ++ s.images.filter fun x => x.home != m.home) }

/-- A call whose routine is not cached: it takes no effect yet, and may park although earlier reads
of its unit have not returned (08 R198, R210). -/
def State.lacksImage (s : State) (q : Req) : Bool :=
  match q.kind with
  | .etch id _ _ => (s.imageOf q id).isNone &&
      !(s.tile.reqs.any fun p => decide (p.id < q.id) && p.sameParty q && !p.performed && p.meets q)
  | .load | .store | .amo _ | .cas _ => false

/-- The condition of a line by which a request, which touches it, is parked. -/
def lineCondition (parked : Option Parked) (accs : List Acc) (line : Nat) : Option Parked :=
  if (parked == some .retry || parked == some .pinned) &&
      accs.any fun a => lineOf (localAddr a.pa) == line then parked else none

/-- What a command and the descents of a BDESC are parked by: condition, line, and place in the
order in which requests were parked (11 R283, 12 R305). -/
def Command.entries (c : Command) : List (Parked × Nat × Nat) :=
  (match c.waiting with
    | some p => [(p, c.line, c.arrival)]
    | none => []) ++ c.descents.filterMap (·.parked)

/-- The condition of a line by which one of these accesses of engines is parked there, before place
`arrival` in that order where it is not 0 (11 R283). -/
def entryAt (l : List (Parked × Nat × Nat)) (line arrival : Nat) : Option Parked :=
  (l.find? fun e => (e.1 == .retry || e.1 == .pinned) && e.2.1 == line &&
    (arrival == 0 || decide (e.2.2 < arrival))).map (·.1)

/-- What the appends of reclaims are parked by (12 R308). -/
def State.reclaimEntries (s : State) : List (Parked × Nat × Nat) := s.reclaims.filterMap (·.parked)

/-- A request is parked at a line by a condition of the line, in front of request `id`, which was
parked itself where `arrival` is not 0 (08 R198). -/
def State.lineParked (s : State) (line id arrival : Nat) : Option Parked :=
  let before (i k : Nat) : Bool := i != id && (arrival == 0 || decide (k < arrival))
  (s.tiles.findSome? fun p =>
    ((p.2.reqs.findSome? fun q =>
      if before q.id q.arrival then lineCondition q.parked q.accs line else none).or
    (p.2.remote.findSome? fun r =>
      if before r.id r.arrival then lineCondition r.parked r.accs line else none)).or
    (p.2.cmds.findSome? fun c => entryAt c.entries line arrival)).or
    (entryAt s.reclaimEntries line arrival)

/-- A line holds up an access of another party than a unit of a tile: a pin, a request that stands
parked there before it, or the sparing of its channel (08 R198, 13 R335, 17 R444). -/
def State.lineHeld (s : State) (line : Nat) : Bool :=
  s.pinnedFor 2048 line || (s.lineParked line s.fresh 0).isSome || s.sparing line ||
    s.farOwned.any fun p => p.1 == line

/-- What keeps the home from performing a request now: nothing, a wait, a wait with an entry of the
forward buffer, or a condition that parks it (08 R188, R198, 13 R335, 14 R363, 17 R432, R433,
R444). -/
inductive Obstacle where
  | wait
  /-- The home has accepted the request and waits for another party's answer. -/
  | accepted
  | park (p : Parked)
  deriving DecidableEq, Repr

/-- Requests that a slice has accepted and not answered: they hold entries of its forward buffer
(14 R363). One that is parked holds an entry of the fault queue instead (log 42). -/
def State.forwards (s : State) (home : Nat × Nat) : Nat :=
  ((s.tiles.flatMap fun p => p.2.reqs).filter fun r =>
    (r.stage == .forwarded || r.stage == .queued) && !r.answered && r.parked.isNone &&
      s.sliceOf r == home).length

/-- A request that is on its way finds no free entry in the forward buffer of its home, and waits in
its channel (14 R363). -/
def State.forwardFull (s : State) (q : Req) : Bool :=
  q.stage == .sent && decide (64 ≤ s.forwards (s.sliceOf q))

/-- The device whose tile owns a line of this device: one that a compact there has published
(13 R336). -/
def State.farOwner (s : State) (la : Nat) : Option Nat :=
  (s.farOwned.find? fun p => p.1 == lineOf la).map (·.2)

/-- A read or write of the tile in focus that is performed at issue waits there: for a request that
is parked at the line, for the copying of the line, for the host's copy, or for a tile of another
device that owns it (08 R198, 14 R363, 17 R432, R433, R444). -/
def State.homeBusy (s : State) (pa : Nat) (write : Bool) : Bool :=
  let la := s.redirect s.cur (localAddr pa)
  s.isLocal pa && ((s.lineParked (lineOf la) s.fresh 0).isSome || s.sparing la ||
    (if write then s.snoopWait la else s.snoopRead la) || (s.farOwner la).isSome)

/-- The first condition at a line that holds up a request of the tile in focus. -/
def State.obstacle (s : State) (q : Req) : Option Obstacle :=
  if (s.behind q && !s.lacksImage q) || s.inPort q.id || s.forwardFull q then some .wait
  else
    (q.accs.filter fun a => !a.done && s.isLocal a.pa).findSome? fun a =>
      let la := localAddr a.pa
      let snoop := if q.kind = .load then s.snoopRead la else s.snoopWait la
      if s.pinnedByOther la then some (.park (if q.kind = .load then .held else .pinned))
      else match s.lineParked (lineOf la) q.id q.arrival with
        | some p => some (.park p)
        | none =>
          if s.sparing la then some .wait
          else if (snoop && !q.snooped) || (s.farOwner la).isSome then some .accepted else none

/-- The home accepts a request that waits for another party: it takes an entry of the forward
buffer, and, where a tile of another device owns a line, it is passed on to that device on FWD
(14 R363). -/
def State.acceptReq (s : State) (q : Req) : State :=
  if q.stage ≠ .sent then s
  else
    let s := s.setReq { q with stage := .forwarded }
    (q.accs.filterMap fun a =>
        if s.isLocal a.pa then s.farOwner (localAddr a.pa) else none).eraseDups.foldl
      (fun s d => s.sendPacket .fwd false s.cur q.id s.tile.tenant d) s

/-- The line may stand in a tile cache (06 R122). -/
def cacheable (la : Nat) : Bool :=
  match regionOf la with
  | .hbm | .appSram | .hostMem => true
  | .window _ _ | .launch _ | .regs _ | .appRegs _ | .unmapped => false

/-! ### The error report of a context (16 R411) -/

/-- Where the next entry of a context's error report goes; none where none is written. -/
def State.ringPlace (s : State) (ctx : Nat) : Option Nat :=
  let ring := s.blockWord ctx 8
  let va := (ring + BitVec.ofNat 64 ((s.blockWord ctx 9).toNat % 64 * 32)).toNat
  if ring = 0 then none
  else match s.translateAt 2048 ctx (s.blockWord ctx 1) 1 va .store with
    | .error _ => none
    | .ok x =>
      if s.unmappedAt x.pa || !s.isLocal x.pa || s.lost (sectorOf (localAddr x.pa)) then none
      else some (localAddr x.pa)

/-- An entry is added to a context's error report, and ERRNOTIFY is raised (16 R411). -/
def State.reportNow (s : State) (ctx kind : Nat) (addr info : Word) : State :=
  let head := s.blockWord ctx 9
  let words : List Word := [BitVec.ofNat 64 kind, addr, BitVec.ofNat 64 s.gtc, info]
  let s1 := match s.ringPlace ctx with
    | none => s
    | some la => (words.zipIdx.foldl (fun (s : State) (p : Word × Nat) =>
        s.writeMem ctx (la + 8 * p.2) 8 p.1.toNat) s).mailboxTriggers [(la, 32)]
  let s2 := s1.setBlockWord ctx 9 (head + 1)
  match s2.hartOf ctx (s2.blockWord ctx 10).toNat with
  | none => s2
  | some n => s2.modTile n fun t => { t with cr := { t.cr with ipend := setSlice t.cr.ipend 5 1 1#1 } }

/-- The line of the next entry is held up at its home. -/
def State.ringHeld (s : State) (ctx : Nat) : Bool :=
  match s.ringPlace ctx with
  | none => false
  | some la => s.lineHeld (lineOf la) || s.snoopWait la

/-- An entry for a context's error report: it waits while the line of the report is held up, and
behind those that wait (08 R198, 13 R335, 17 R432, R444). -/
def State.report (s : State) (ctx kind : Nat) (addr info : Word) : State :=
  let s := s.detectTables 2048 ctx (s.blockWord ctx 1) 1
    (s.blockWord ctx 8 + BitVec.ofNat 64 ((s.blockWord ctx 9).toNat % 64 * 32)).toNat
  if s.ringHeld ctx || s.reportsHeld.any (·.1 == ctx) then
    { s with reportsHeld := s.reportsHeld ++ [(ctx, kind, addr, info)] }
  else s.reportNow ctx kind addr info

/-- The entries that wait are added as far as their lines allow it. -/
def State.flushReports (s : State) : State :=
  match s.reportsHeld with
  | [] => s
  | held => held.foldl (fun s r => s.report r.1 r.2.1 r.2.2.1 r.2.2.2) { s with reportsHeld := [] }

/-- KIND of MFINFO for a request (06 R126). -/
def ReqKind.code (k : ReqKind) : Nat :=
  match k with
  | .load => 0
  | .store => 1
  | .amo _ | .cas _ | .etch _ _ _ => 3

/-- The trap of a request that fails at its home (08 R201, 14 R368). That of an increment of the
inbox count is ENGFAULT with CODE 1 for its record (11 R273, R282). -/
def Req.fault (q : Req) (cause : Cause) (reason : Nat) : Deferred :=
  match q.engine with
  | some record =>
    ⟨Cause.engfault.code, 0#32 ++ 1#4 ++ 0#4 ++ record, some (mfinfoOf 0 3 q.kind.code reason)⟩
  | none => ⟨cause.code, q.va, some (mfinfoOf 0 q.unit.source q.kind.code reason)⟩

/-- The error that a request takes when its data are lost (08 R201). -/
def Req.dataError (q : Req) : Deferred := q.fault .dataerr reasonUE

/-- Lost data reach a consumer: an entry of KIND 3 where they were another context's (16 R426). -/
def State.reportLost (s : State) (ctx la : Nat) : State :=
  match s.poisoned.find? (fun p => p.1 == sectorOf la) with
  | some (_, owner) =>
    if owner = ctx || (cacheable la == false) then s
    else s.report ctx 3 (BitVec.ofNat 64 la) (BitVec.ofNat 64 (s.homeBank la))
  | none => s

/-- The tile gives up a copy of a line that it does not own (11 R269). -/
def Tile.dropStale (t : Tile) (line : Nat) : Tile :=
  match t.line line with
  | some l => if l.owned then t else t.dropLine line
  | none => t

/-- A load of one piece (06 R122, 07 R160). A request reports its lost data once. One that reads
past the tile's cache leaves no older copy there (12 R310). -/
def State.loadAcc (s : State) (q : Req) (a : Acc) : State × Acc × Option Deferred :=
  if !s.isLocal a.pa then
    match s.tile.copyAt (s.keyOf a.pa) with
    | some _ =>
      (s, { a with data := readLE (s.tileByte s.cur) (s.keyOf a.pa) a.size, done := true }, none)
    | none =>
      (s, { a with data := (Config.remoteWord q.id a.pa).toNat % 256 ^ a.size, done := true }, none)
  else
    let la := s.pinLa s.cur (localAddr a.pa)
    let copy := if a.mt then none else s.tile.copyAt la
    match copy with
    | some _ => (s, { a with data := readLE (s.tileByte s.cur) la a.size, done := true }, none)
    | none =>
      let s := s.detectRead la
      match s.lostRead la with
      | some sec =>
        (if q.error.isSome then s else s.reportLost q.ctx (64 * sec), { a with done := true },
          some q.dataError)
      | none =>
        let v := s.readMem la a.size
        let s := if cacheable la && s.ownerOf (lineOf la) != some s.cur then s.recall (lineOf la) else s
        let s := if a.mt then s.onTile (·.dropStale (lineOf la)) else s
        let s := if s.choice.fill && cacheable la && !a.mt then s.fill s.cur la else s
        (s, { a with data := v, done := true }, none)

/-- The tile owns the line of an address. -/
def Tile.owns (t : Tile) (la : Nat) : Bool :=
  match t.line (lineOf la) with
  | some l => l.owned
  | none => false

/-- A store into the tile's copy of a sector of a line that it owns (06 R123). -/
def Tile.storeOwned (t : Tile) (ctx la size data : Nat) : Tile :=
  match t.line (lineOf la) with
  | none => t
  | some l => t.setLine
      ((writeLE (fun (l : CacheLine) i b => l.put i b) l la data size).soil la ctx)

/-- A store of one piece (06 R123, R125). The sector of an owned line is filled first; while its
data are lost the store goes through to the home, which keeps the loss (log 24). -/
def State.storeAcc (s : State) (q : Req) (a : Acc) : State × Acc × Option Deferred :=
  let a' := { a with done := true }
  if !s.isLocal a.pa then
    (if s.tile.owns (s.keyOf a.pa) then
      s.onTile (·.storeOwned q.ctx (s.keyOf a.pa) a.size a.data) else s, a', none)
  else
    let la := s.redirect s.cur (localAddr a.pa)
    let owned := s.tile.owns la
    if cacheable la && !a.mt && (owned || (a.pvt && decide (0 < s.tile.ways))) then
      let s := if (s.tile.copyAt la).isNone || !owned then s.detect (sectorOf la) else s
      if ((s.tile.copyAt la).isNone || !owned) && s.lost (sectorOf la) then
        (s.writeMem q.ctx la a.size a.data, a', none)
      else
        let s := if owned then s.fill s.cur la else s.own s.cur la
        (if s.tile.owns la then s.onTile (·.storeOwned q.ctx la a.size a.data)
         else s.writeMem q.ctx la a.size a.data, a', none)
    else
      let s := s.writeMem q.ctx la a.size a.data
      (s.onTile fun t => t.updateCopy la a.size a.data, a', none)

/-- The home brings a line into the state from which an atomic is executed (08 R187): an owner gives
it up, and the word's sector is read. A line that is not present, of which no
sector is dirty here, is filled with both sectors; with `fill` such a line counts as not present
(log 6). -/
def State.bringHome (s : State) (la : Nat) : State :=
  let s := (s.recall (lineOf la)).detect (sectorOf la)
  let k := sectorOf (lineOf la)
  if s.choice.fill && cacheable la && (s.tagOf k).isNone && (s.tagOf (k + 1)).isNone then
    (s.detect k).detect (k + 1)
  else s

/-- An atomic on one word at its home: read, computation and write in one step (08 R187, R190,
R193). The old value of a word of another device is free, and the flags are those that it gives
(08 R192). -/
def State.atomicAcc (s : State) (q : Req) (a : Acc) (f : Nat → Option Nat × FpFlags) :
    State × Acc × List Word × FpFlags × Option Deferred :=
  let a' := { a with done := true }
  let result (old : Nat) : List Word := [BitVec.ofInt 64 (signedAt a.size old)]
  if !s.isLocal a.pa then
    let old := (Config.remoteWord q.id a.pa).toNat % 256 ^ a.size
    (s, a', result old, (f old).2, none)
  else
    let la := s.redirect s.cur (localAddr a.pa)
    let s := (s.dropCopy (lineOf la)).bringHome la
    if s.lost (sectorOf la) then (s.reportLost q.ctx la, a', [], 0, some q.dataError)
    else
      let old := s.readMem la a.size
      let (new, fl) := f old
      let s := match new with
        | some v => (s.writeMem q.ctx la a.size v).mailboxTriggers [(la, a.size)]
        | none => s
      (s, a', result old, fl, none)

/-! ### Etch calls at the home (08 R207–R210) -/

/-- TVAL of ETFAULT (08 R213). -/
def etTval (deferred : Bool) (code : Nat) (line : Word) (word : Nat) : Word :=
  (if deferred then 1#1 else 0#1) ++ BitVec.ofNat 7 code ++ slice line 7 49 ++ BitVec.ofNat 5 word ++
    0#2

/-- What came of fetching a routine (08 R198, R210). -/
inductive RoutineFetch where
  | ok (image : EtchImage)
  /-- The table entry or the image, at this address, did not translate. -/
  | unreachable (va : Nat)
  | bad (d : Deferred)
  /-- A line that it reads is held up at its home. -/
  | wait
  deriving DecidableEq, Repr

/-- What came of reading the words of a table entry or an image. -/
inductive RoutineRead where
  | words (l : List Word)
  | fault
  | lost
  | wait
  deriving DecidableEq, Repr

/-- `n` words of the routine table or of an image, read at their home with the tables of a call's
context (06 R458, 08 R210). Those of another device are free. An address that translates to nothing,
or through a leaf marked POISON, counts like one that fails to translate; no rule says so (DESIGN
CHOICE, log 33). -/
def State.routineWords (s : State) (q : Req) (trbase : Word) (va n : Nat) : State × RoutineRead :=
  let s := s.detectTables 2048 q.ctx trbase q.level va
  if (s.tableStop 2048 q.ctx trbase q.level va).isSome then (s, .wait)
  else match s.translateAt 2048 q.ctx trbase q.level va .load with
    | .error e => (s, if e.reason = reasonUE then .lost else .fault)
    | .ok x =>
      let la := localAddr x.pa
      if s.unmappedAt x.pa || x.poison.isSome then (s, .fault)
      else if !s.isLocal x.pa then
        (s, .words ((List.range n).map fun k => Config.remoteWord q.id (x.pa + 8 * k)))
      else if s.lineHeld (lineOf la) || s.snoopRead la then (s, .wait)
      else
        let s := (List.range ((n + 7) / 8)).foldl (fun s k => s.detect (sectorOf la + k)) s
        if (List.range ((n + 7) / 8)).any fun k => s.lost (sectorOf la + k) then (s, .lost)
        else (s, .words ((List.range n).map fun k => BitVec.ofNat 64 (s.readMem (la + 8 * k) 8)))

/-- The image of a routine read through the tables of the context at the level of the call, and
verified (08 R198, R203, R208, R210, 06 R458). No rule says what lost data in the entry or the image
do to the call: it takes DATAERR as for its line (DESIGN CHOICE, log 33). -/
def State.fetchRoutine (s : State) (n : Nat) (q : Req) (id : Nat) (etbase : Word) :
    State × RoutineFetch :=
  let trbase := (s.getTile n).cr.trbase
  let entry := (slice etbase 10 38).toNat * 1024 + 16 * id
  match s.routineWords q trbase entry 2 with
  | (s, .wait) => (s, .wait)
  | (s, .fault) => (s, .unreachable entry)
  | (s, .lost) => (s, .bad q.dataError)
  | (s, .words ws) =>
    let w0 := ws.getD 0 0
    let w1 := ws.getD 1 0
    let image := (slice w0 7 41).toNat * 128
    if !bitAt w1 63 then (s, .bad ⟨Cause.etfault.code, etTval true 7 q.va 0, none⟩)
    else match s.routineWords q trbase image 16 with
      | (s, .wait) => (s, .wait)
      | (s, .fault) => (s, .unreachable image)
      | (s, .lost) => (s, .bad q.dataError)
      | (s, .words ls) =>
        let words := (List.range 32).map fun k => slice (ls.getD (k / 2) 0) (32 * (k % 2)) 32
        let len := (slice w1 0 6).toNat
        match etchCheck words len with
        | some (code, k) =>
          (s, .bad ⟨Cause.etfault.code, etTval true code (BitVec.ofNat 64 image) k, none⟩)
        | none => (s, .ok ⟨s.sliceOf q, q.ctx, id, (slice w1 32 16).toNat, words.take len⟩)

/-- How many accesses of engines hold an entry of the fault queue of a slice (11 R283, 12 R305). -/
def State.entriesHere (s : State) (home : Nat × Nat) (l : List (Parked × Nat × Nat)) : Nat :=
  (l.filter fun e => (e.1 == .retry || e.1 == .pinned || e.1 == .pool) &&
    s.homeOf e.2.1 == home).length

/-- The fault queue of a slice, of 128 entries, is full (08 R197). A held load stands at its
member's tile (13 R335). -/
def State.faultQueueFull (s : State) (home : Nat × Nat) : Bool :=
  let here (parked : Option Parked) (accs : List Acc) : Bool :=
    parked.isSome && parked != some .held && s.homeSlice accs == home
  decide (128 ≤ (s.tiles.map fun p => (p.2.reqs.filter fun q => here q.parked q.accs).length +
    (p.2.remote.filter fun r => here r.parked r.accs).length +
    (p.2.cmds.map fun c => s.entriesHere home c.entries).sum).sum +
    s.entriesHere home s.reclaimEntries)

/-- A request of the tile in focus enters the fault queue of its home, or is refused where that is
full (08 R197, R198). One that has an entry keeps it. -/
def State.park (s : State) (q : Req) (p : Parked) : State :=
  if p != .held && q.parked.isNone && s.faultQueueFull (s.sliceOf q) then
    s.setReq { q with stage := .refused }
  else
    { s with fresh := s.fresh + 1 }.setReq
      { q with parked := some p, stage := .sent, arrival := s.fresh }

/-- Calls in the queue of the Etch unit of a slice, in the order of their arrival (08 R188). -/
def State.etchQueue (s : State) (home : Nat × Nat) : List Req :=
  sortBy (fun a b => decide (a.arrival ≤ b.arrival))
    ((s.tiles.flatMap fun p => p.2.reqs).filter fun r =>
      r.stage == .queued && !r.answered && r.parked.isNone && s.sliceOf r == home)

/-- A call reaches the Etch unit of its slice: it joins the queue of 8, or is refused (08 R188). -/
def State.joinEtch (s : State) (q : Req) : State :=
  if (s.etchQueue (s.sliceOf q)).length < 8 then
    { s with fresh := s.fresh + 1 }.setReq { q with stage := .queued, arrival := s.fresh }
  else s.setReq { q with stage := .refused }

/-- An earlier call of the context to the routine is parked at the slice of a line by a routine
fetch fault (08 R198). -/
def State.routineFaulted (s : State) (q : Req) (rid : Nat) : Bool :=
  let home (r : Req) : Option (Nat × Nat) :=
    r.accs.head?.map fun a => s.homeOf (lineOf (localAddr a.pa))
  s.tiles.any fun p => p.2.reqs.any fun r =>
    r.parked == some .routineFault && r.ctx == q.ctx && r.id != q.id && home r == home q &&
      (match r.kind with
       | .etch k _ _ => k == rid
       | .load | .store | .amo _ | .cas _ => false)

/-- The call parks with a routine fetch fault; the first one of the routine at the slice adds the
entry of KIND 1 (08 R198). -/
def State.parkRoutine (s : State) (q : Req) (rid : Nat) (known : Bool) (va : Nat) : State :=
  let s' := s.park q .routineFault
  if known || (q.parked.isNone && s.faultQueueFull (s.sliceOf q)) then s'
    else s'.report q.ctx 1 (BitVec.ofNat 64 va) (BitVec.ofNat 64 rid)

/-- The call runs on its line (08 R207): every word in one step. A written sector 1 covers byte 127
of a mailbox line. -/
def State.runCall (s : State) (q : Req) (image : EtchImage) (ops : List Word) : State × Req :=
  let la := match q.accs with
    | a :: _ => lineOf (s.redirect s.cur (localAddr a.pa))
    | [] => 0
  let s := (((s.dropCopy la).recall la).detect (sectorOf la)).detect (sectorOf la + 1)
  let accs := q.accs.map fun a => { a with done := true }
  if s.lost (sectorOf la) || s.lost (sectorOf la + 1) then
    let bad := if s.lost (sectorOf la) then la else la + 64
    (s.reportLost q.ctx bad, { q with accs := accs, error := some q.dataError, answered := true })
  else
    let line := (List.range 16).map fun k => BitVec.ofNat 64 (s.readMem (la + 8 * k) 8)
    let r := etchCall q.mode image.words line ops
    let put (s : State) (k : Nat) : State := s.writeMem q.ctx (la + 8 * k) 8 (r.reg k).toNat
    let s := if r.wrote0 then ((List.range 8).foldl put s).cleanse (sectorOf la) else s
    let s := if r.wrote1 then
        (((List.range 8).foldl (fun s k => put s (k + 8)) s).cleanse (sectorOf la + 1)).mailboxTriggers
          [(la + 64, 64)]
      else s
    (s, { q with accs := accs, result := [r.reg 20, r.reg 21], flags := r.flags, answered := true })

/-! ### The home performs a request (07 R161, 08 R196) -/

/-- Sectors that the pieces of a store cover in full lose their poison (16 R426, 18 R448). -/
def State.cleanseCovered (s : State) (q : Req) : State :=
  let las := q.accs.map fun a => s.redirect s.cur (localAddr a.pa)
  let full (sec : Nat) : Bool :=
    (List.range 64).all fun i => (q.accs.zip las).any fun p =>
      decide (p.2 ≤ 64 * sec + i ∧ 64 * sec + i < p.2 + p.1.size)
  (las.map sectorOf).eraseDups.foldl (fun s sec => if full sec then s.cleanse sec else s) s

/-- The number of the first piece of a request that lies in the 8-byte word of piece `i`: the pieces
of one word are one access (07 R154). -/
def Req.wordIndex (q : Req) (i : Nat) : Nat :=
  match q.accs[i]? with
  | some a => q.accs.findIdx fun b => b.pa / 8 == a.pa / 8
  | none => i

/-- The words of a request that `which` selects, performed in the order of their pieces. -/
def State.performAccs (s : State) (q : Req) (which : Nat → Bool) : State × Req :=
  let step (p : State × Req) (ai : Acc × Nat) : State × Req :=
    let (s, q) := p
    let (a, i) := ai
    if a.done || !which (q.wordIndex i) then p
    else match q.kind with
      | .load =>
        let (s, a, e) := s.loadAcc q a
        (s, { q with accs := setNth q.accs i a, error := q.error.or e })
      | .store =>
        let (s, a, e) := s.storeAcc q a
        (s, { q with accs := setNth q.accs i a, error := q.error.or e })
      | .amo op =>
        let (s, a, r, fl, e) := s.atomicAcc q a fun old =>
          let (v, fl) := amoOp op a.size q.mode old a.data
          (some v, fl)
        (s, { q with accs := setNth q.accs i a, result := r, flags := fl, error := e })
      | .cas expect =>
        let (s, a, r, fl, e) := s.atomicAcc q a fun old =>
          (if old = expect then some a.data else none, 0)
        (s, { q with accs := setNth q.accs i a, result := r, flags := fl, error := e })
      | .etch _ _ _ => p
  q.accs.zipIdx.foldl step (s, q)

/-- A correctable error in a sector that the request touches is found; the home rereads the line
(08 R198, 18 R448). -/
def State.needsRetry (s : State) (q : Req) : Bool :=
  s.choice.defer && q.accs.any fun a => !a.done && s.isLocal a.pa &&
    s.injected.any fun p => p.1 == sectorOf (s.redirect s.cur (localAddr a.pa)) && !p.2

/-- The sectors that a request touches are examined for errors. -/
def State.detectAll (s : State) (q : Req) : State :=
  q.accs.foldl (fun s a => s.detect (sectorOf (s.redirect s.cur (localAddr a.pa)))) s

/-- The home takes up a request of the tile in focus: it performs the pieces that `which` selects,
or parks the request, or leaves it waiting (07 R161, 08 R187, R196, R198). -/
def State.serveCore (s : State) (id : Nat) (which : Nat → Bool) : State :=
  match s.req id with
  | none => s
  | some q =>
    if q.answered || q.parked.isSome || q.stage == .refused then s
    else match s.obstacle q with
      | some .wait => s
      | some .accepted => s.acceptReq q
      | some (.park p) => s.park q p
      | none =>
        if s.needsRetry q then (s.detectAll q).park q .retry
        else match q.kind with
        | .etch rid ops etbase =>
          if (s.etchQueue (s.sliceOf q)).any (fun r => r.id != q.id && (q.stage != .queued ||
              decide (r.arrival < q.arrival))) then
            (if q.stage = .queued then s else s.joinEtch q)
          else (match s.imageOf q rid with
           | some image =>
             let (s, q) := s.runCall q image ops
             s.setReq q
           | none =>
             if s.routineFaulted q rid then s.parkRoutine q rid true 0
             else if s.choice.defer then s.park q .routineMiss
             else match s.fetchRoutine s.cur q rid etbase with
               | (s, .wait) => s
               | (s, .unreachable va) => s.parkRoutine q rid false va
               | (s, .bad d) => s.setReq { q with error := some d, answered := true }
               | (s, .ok image) =>
                 let s := s.cacheImage image
                 if s.behind q then s
                 else
                 let (s, q) := s.runCall q image ops
                 s.setReq q)
        | .load | .store | .amo _ | .cas _ =>
          let (s, q) := s.performAccs q which
          if !q.performed then s.setReq q
          else
            let s := s.setReq { q with answered := true }
            if q.kind = .store then
              (s.cleanseCovered q).mailboxTriggers ((q.accs.filter fun a => s.isLocal a.pa).map
                fun a => (localAddr a.pa, a.size))
            else s

/-! ### Pairs of twins (13 R340) -/

/-- The other tile of the pair that a member of a TWIN compact forms. -/
def State.pairOf (s : State) (n : Nat) : Option Nat :=
  let m := (s.getTile n).member
  if m.phase = .free ∨ m.phase = .signing then none
  else match s.compacts.find? (fun c => c.signed && c.twin && c.num == m.compact) with
    | none => none
    | some c => (c.members.find? fun x => x.index == m.index && x.twin != m.twin).map fun x =>
        s.hartOfMember c.num x.tile

/-- A physical address lies in the SRAM of one of the tiles of two harts, or in the backing memory
of their range, for which that SRAM stands (19 R449). -/
def State.insidePair (s : State) (n m pa : Nat) : Bool :=
  match regionOf (s.keyOf pa) with
  | .window k _ => k == s.homeTile n || k == s.homeTile m
  | .hbm | .launch _ | .regs _ | .appSram | .appRegs _ | .hostMem | .unmapped =>
    (s.ownBacking (s.homeTile n) (s.keyOf pa)).isSome

/-- A write that leaves a pair. -/
def State.outward (s : State) (q : Req) (n m : Nat) : Bool :=
  q.writes && q.accs.any fun a => !s.insidePair n m a.pa

/-- What the routers hash of a copy. -/
def Req.digest (q : Req) : List Nat :=
  (match q.kind with
   | .load => [0]
   | .store => [1]
   | .amo op => [2, op]
   | .cas e => [3, e]
   | .etch id ops _ => 4 :: id :: ops.map (·.toNat)) ++
    q.accs.flatMap fun a => [a.pa, a.size, a.data]

/-- Two copies have the same hash (13 R340, log 17). -/
def sameCopy (a b : List Nat) : Bool := a == b || Config.pairHash a == Config.pairHash b

/-- A mismatch: the next superstep barrier rolls back. -/
def State.mismatch (s : State) (n : Nat) : State :=
  let k := (s.getTile n).member.compact
  { s with compacts := s.compacts.map fun c =>
      if c.num = k ∧ c.signed then { c with mismatch := true } else c }

/-- Request `id` of a tile changed. -/
def State.modReq (s : State) (n id : Nat) (f : Req → Req) : State :=
  s.modTile n fun t => { t with reqs := t.reqs.map fun q => if q.id = id then f q else q }

/-- A request that has no effect of its own is answered. -/
def Req.void (q : Req) (result : List Word) : Req :=
  { q with paired := true, answered := true, result := result
           accs := q.accs.map fun a => { a with done := true } }

/-- The oldest outward writes of both tiles of a pair are compared once both have left: the
primary's goes on alone, and an atomic or a call of the twin takes its result; copies that differ
are not forwarded. -/
def State.comparePair (s : State) (m : Nat) : State :=
  let n := s.cur
  let first (t : Tile) : Option Req := t.reqs.find? fun q => s.outward q n m && !q.paired
  match first s.tile, first (s.getTile m) with
  | some a, some b =>
    if sameCopy a.digest b.digest then
      let twin (k : Nat) (q : Req) (s : State) : State :=
        if (s.getTile k).member.twin then
          s.modReq k q.id fun q => if q.kind = .store then q.void [] else { q with paired := true }
        else s.modReq k q.id fun q => { q with paired := true }
      twin m b (twin n a s)
    else
      let v := [Config.freeWord s.fresh]
      (({ s with fresh := s.fresh + 1 }.modReq n a.id (·.void v)).modReq m b.id (·.void v)).mismatch n
  | _, _ => s

/-- The home takes up a request, once the copy of a twin has been compared (13 R340). -/
def State.serveSome (s : State) (id : Nat) (which : Nat → Bool) : State :=
  match s.req id with
  | none => s
  | some q =>
    match s.pairOf s.cur with
    | none => s.serveCore id which
    | some m =>
      if !s.outward q s.cur m then s.serveCore id which
      else
        let s := if q.paired then s else s.comparePair m
        match s.req id with
        | none => s
        | some q =>
          if q.paired && !s.tile.member.twin then s.serveCore id which else s

/-- The result of an atomic or a call of the primary tile reaches the twin's request. -/
def State.shareResult (s : State) (q : Req) : State :=
  if !q.paired || s.tile.member.twin || q.kind == .store then s
  else match s.pairOf s.cur with
    | none => s
    | some m =>
      match (s.getTile m).reqs.find? (fun r => r.paired && !r.answered && r.kind == q.kind) with
      | none => s
      | some r => s.modReq m r.id fun r =>
          { r.void q.result with error := q.error, flags := q.flags }

/-- The home takes up a whole request. -/
def State.serve (s : State) (id : Nat) : State := s.serveSome id fun _ => true

/-! ### Responses (02 R45, 06 R142, 07 R167, 08 R195, R201) -/

/-- The pieces of a loaded value laid over an image of `8 * n` bits. -/
def overlay {w : Nat} (old : BitVec w) (accs : List Acc) : BitVec w :=
  accs.foldl (fun v a =>
    (v &&& ~~~((BitVec.ofNat w (2 ^ (8 * a.size) - 1)) <<< (8 * a.off))) |||
      ((BitVec.ofNat w a.data) <<< (8 * a.off))) old

/-- An error that was found at the home is taken at the hart's next boundary (08 R201). A member
of a compact with snapshots does not take it: the compact rolls back (13 R338). -/
def State.deliverError (s : State) (d : Deferred) : State :=
  match s.rollsBack d.cause d.mfinfo with
  | some num => s.post .rollback { EventArg.none with n₁ := num, tile := s.cur }
  | none => s.onTile fun t => { t with deferred := t.deferred ++ [d] }

/-- The matrix-side items that an instruction reads. -/
def Issue.items (q : Issue) : List Nat :=
  q.reads.filterMap fun r => match r with
    | .t k => some k.toNat
    | .acc b => some (8 + b.toNat)
    | .x _ | .v _ | .m _ => none

/-- An instruction that has read an item with an uncorrectable error: it performs nothing, and its
hart takes DATAERR at its next boundary, unless its compact rolls back (10 R263, 13 R338). -/
def State.matrixError (s : State) (q : Issue) (n : Nat) : State :=
  ((s.tileError n 3 true (s.position n)).deliverError
    ⟨Cause.dataerr.code, 1#1 ++ 0#31 ++ q.word, none⟩).finish q

/-- A matrix instruction that has passed its checks; `done` is the state with its effect. -/
def State.matrixDone (s : State) (q : Issue) (done : State) : State :=
  if q.items.any s.tile.unsound.contains then s.matrixError q s.cur else done.finish q

/-- A running replay does not see the value of a load (04 R77): one that the execute hart issued
after the replay began. -/
def Tile.landsLate (t : Tile) (q : Req) : Bool :=
  q.unit != .vs && (match t.frame with
    | some f => decide (f.born ≤ q.id)
    | none => false)

/-- A value of a load, laid into its destination. -/
def Tile.land (t : Tile) (q : Req) : Tile :=
  match q.dest with
  | .none => t
  | .x r size signed =>
    let v := (overlay (0 : Word) q.accs).toNat
    let w : Word := if signed then BitVec.ofInt 64 (signedAt size v) else BitVec.ofNat 64 v
    let c := t.core q.unit
    t.setCore q.unit { c with x := c.x.commit r w }
  | .x2 r₁ r₂ =>
    let c := t.core q.unit
    t.setCore q.unit { c with
      x := (c.x.commit r₁ (q.result.getD 0 0)).commit r₂ (q.result.getD 1 0) }
  | .v r old => t.commitV (!t.landsLate q) r (overlay old q.accs)
  | .t r =>
    let rows := (vget t.t r (Vector.replicate 64 0))
    let put (rows : Vector Vec 64) (j : Nat) : Vector Vec 64 :=
      let mine := (q.accs.filter fun a => a.off / 64 == j).map fun a => { a with off := a.off % 64 }
      if mine.isEmpty then rows else vset rows j (overlay (vget rows j 0) mine)
    { t with t := vset t.t r ((List.range 64).foldl put rows) }
  | .queue k ticket =>
    { t with queues := vset t.queues k ((vget t.queues k []).map fun e =>
        if e.ticket = ticket then { e with data := overlay e.data q.accs, arrived := true } else e) }

/-- A failed QLD fills its entry with zeros, and no pop takes it before the trap (06 R143). Another
failed result leaves its registers as they are, and what waits for them waits for the trap
(08 R201). -/
def Tile.landFailed (t : Tile) (q : Req) : Tile :=
  let t := { t with failed := t.failed ++ [(q.unit, q.dest)] }
  match q.dest with
  | .queue k ticket =>
    { t with queues := vset t.queues k ((vget t.queues k []).map fun e =>
        if e.ticket = ticket then { e with data := 0, arrived := true, faulted := true } else e) }
  | .none | .x _ _ _ | .x2 _ _ | .v _ _ | .t _ => t

/-- The response of a request reaches its tile. -/
def State.respond (s : State) (id : Nat) : State :=
  match s.req id with
  | none => s
  | some q =>
    if !q.answered then s
    else
      let s := (s.dropReq id).shareResult q
      match q.error with
      | some d => (s.onTile (·.landFailed q)).deliverError d
      | none =>
        let s := match q.kind with
          | .load => s.onTile (·.land q)
          | .store => s
          | .amo _ | .cas _ =>
            (match q.dest with
             | .x r _ _ => s.onTile fun t =>
                 let c := t.core q.unit
                 t.setCore q.unit { c with x := c.x.commit r (q.result.getD 0 0) }
             | .none | .x2 _ _ | .v _ _ | .t _ | .queue _ _ => s)
          | .etch _ _ _ => s.onTile (·.land q)
        let s := s.onTile fun t => { t with
          cr := { t.cr with fpflags := t.cr.fpflags ||| q.flags.setWidth 64 } }
        match q.acquire with
        | some 0 | none => s
        | some _ => s.onTile (·.invalidate)

/-- The other devices that a request is for (14 R355). -/
def State.farDevices (s : State) (accs : List Acc) : List Nat :=
  (accs.filterMap fun a => if s.isLocal a.pa then none else some (a.pa / 2 ^ 44)).eraseDups

/-- A request leaves its unit. With the choice `defer` it stays under way; otherwise the home
performs it and its response arrives at once, unless something there holds it up (log 6). What is
for another device leaves through a port, a packet for each (14 R355). -/
def State.request (s : State) (q : Req) : State :=
  let id := s.fresh
  let s := { s with fresh := s.fresh + 1 }
  let s := s.onTile fun t => { t with reqs := t.reqs ++ [{ q with id := id }] }
  match s.farDevices q.accs with
  | [] => if s.choice.defer then s else (s.serve id).respond id
  | ds => ds.foldl (fun s d => s.sendPacket .req false s.cur id s.tile.tenant d) s

/-! ### Limits, releases and acquires (06 R130, R131, 07 R166–R169, 08 R195) -/

/-- Loads of the tile that are outstanding at their homes (06 R131). -/
def Tile.loadsOut (t : Tile) : Nat := (t.reqs.filter (·.kind == .load)).length

/-- F/E loads of the tile in focus that wait at their words (06 R131, R138). -/
def State.feLoadsOut (s : State) : Nat :=
  (s.tiles.map fun p => (p.2.feWaits.filter fun w =>
    w.tile == s.cur && w.task.isNone && w.kind != .stw).length).sum

/-- Stores of a unit in its store queue (06 R130). -/
def Tile.storesOut (t : Tile) (u : UnitId) : Nat :=
  (t.reqs.filter fun q => q.kind == .store && q.by u).length

/-- Tickets in use (08 R195). -/
def Tile.ticketsOut (t : Tile) : Nat :=
  (t.reqs.filter fun q => q.ticketed && q.engine.isNone).length

/-- An acquire whose response has not come holds up every later access of its unit (07 R169). -/
def State.acquiring (s : State) : Bool :=
  s.tile.reqs.any fun q => q.by s.who && q.acquire.isSome

/-- The same for an instruction that replays a call parked by a routine fetch fault (08 R211). -/
def State.acquiringFirst (s : State) : Bool :=
  s.tile.reqs.any fun q => q.by s.who && q.acquire.isSome && s.holdsUp true q.id

/-- A load, store or atomic may not issue yet. -/
def State.loadWaits (s : State) : Bool :=
  decide (64 ≤ s.tile.loadsOut + s.feLoadsOut) || s.acquiring

def State.storeWaits (s : State) : Bool := decide (16 ≤ s.tile.storesOut s.who) || s.acquiring

/-- Every write and atomic that the unit has issued is performed at a scope (07 R166). An RST is a
command, for which FENCEA waits (07 R179), and whether it also is one of the writes of R166 and R178
is not stated: the model leaves it out of both (DESIGN CHOICE, log 63). -/
def State.releasedAt (s : State) (scope : Nat) : Bool :=
  s.tile.reqs.all fun q => !q.by s.who || !q.writes || (scope == 0 && q.performed)

/-- The same at a scope wider than TILE: every one has been acknowledged. -/
def State.released (s : State) : Bool := s.releasedAt 3

/-- An acquire at a scope wider than TILE (07 R167). -/
def State.acquire (s : State) : State := s.onTile (·.invalidate)

/-! ### Pieces -/

/-- `size` bytes at a checked physical address that lie in one aligned 8-byte word. -/
def Xlat.acc (x : Xlat) (size off data : Nat) : Acc := ⟨x.pa, size, off, x.pvt, x.mt, data, false⟩

/-- The aligned 8-byte words of `n` bytes from a checked address that is a multiple of 8
(07 R154). -/
def Xlat.words (x : Xlat) (n off : Nat) (data : Nat) : List Acc :=
  (List.range ((n + 7) / 8)).map fun k =>
    ⟨x.pa + 8 * k, min 8 (n - 8 * k), off + 8 * k, x.pvt, x.mt,
      data / 256 ^ (8 * k) % 256 ^ min 8 (n - 8 * k), false⟩

/-- A request of the unit that executes, before it is numbered. -/
def State.newReq (s : State) (kind : ReqKind) (accs : List Acc) (dest : Dest) (va : Word) : Req where
  id := 0
  unit := s.who
  engine := none
  stage := .sent
  kind := kind
  accs := accs
  dest := dest
  va := va
  ctx := s.tile.ctx
  level := s.tile.level
  mode := s.tile.fpMode
  acquire := none
  flags := 0
  result := []
  error := none
  parked := none
  arrival := 0
  sent := s.cc
  snooped := false
  paired := false
  answered := false

/-- Where a load into X[r] goes; x0 discards. -/
def State.destX (s : State) (r : XReg) (size : Nat) (signed : Bool) : Dest :=
  if r = 0 then .none else .x (s.xIndex r.toNat) size signed

/-! ### Words that an instruction reads at issue (13 R335) -/

/-- The words of pinned ranges that the instruction at issue has met (13 R335). -/
def State.heldReads (s : State) : List HeldWord :=
  match s.core.begun with
  | some (.reads l) => l
  | some (.save _) | some .load | some .wfi | some (.fence _) | none => []

/-- The word at a physical address is held at the compact that has pinned it (13 R335). -/
def State.holdRead (s : State) (pa : Nat) : State :=
  s.setCore { s.core with begun := some (.reads (s.heldReads ++ [⟨pa, .waits⟩])) }

/-- Why an instruction at issue does not have the words that it reads: a trap, or a wait for a walk;
a wait for a word that is held at a compact or up at its home; or lost data, for which a DATAERR has
been deferred and the instruction ends. -/
inductive ReadFail where
  | trap (t : Trap)
  | held
  | lost
  deriving DecidableEq, Repr

/-- What a word of a local page holds, or that its sector is lost. -/
def State.readWord (s : State) (ctx la : Nat) : State × Option Nat :=
  let s := s.detect (sectorOf la)
  if s.lost (sectorOf la) then (s.reportLost ctx la, none) else (s, some (s.readKey la 8))

/-- The same for the tile in focus, its own copy first. -/
def State.readOwn (s : State) (la : Nat) : State × Option Nat :=
  match s.tile.copyAt la with
  | some _ => (s, some (readLE (s.tileByte s.cur) la 8))
  | none => s.readWord s.tile.ctx la

/-- One word read for an instruction at issue; `none` where it is held. -/
def State.readOne (s : State) (f : Form) (va : Word) (x : Xlat) : State × Option (Except Trap Nat) :=
  let lost : Except Trap Nat := .error (s.addrTrap f va ⟨reasonUE, 0, false⟩)
  if !s.isLocal x.pa then (s, some (.ok (Config.remoteWord s.fresh x.pa).toNat))
  else match s.heldReads.find? (·.pa == x.pa) with
    | some h =>
      (match h.value with
       | .waits => (s, none)
       | .lost => (s, some lost)
       | .word v => (s, some (.ok v.toNat)))
    | none =>
      if s.pinnedByOther (localAddr x.pa) then (s.holdRead x.pa, none)
      else if s.homeBusy x.pa false then (s, none)
      else match s.readOwn (s.redirect s.cur (localAddr x.pa)) with
        | (s, none) => (s, some lost)
        | (s, some v) => (s, some (.ok v))

/-- `n` words read at consecutive addresses, each checked and examined for errors. Words in pinned
ranges are all asked for before the instruction waits for them (13 R335). -/
def State.readWords (s : State) (va : Word) : Nat → State × Except ReadFail (List Word)
  | 0 => (s, .ok [])
  | n + 1 =>
    let f : Form := { kind := .load, align := 0 }
    match s.check f va with
    | .error e => (s, .error (.trap e))
    | .ok x =>
      match s.readOne f va x with
      | (s, some (.error e)) => (s, .error (.trap e))
      | (s, r) =>
        match s.readWords (va + 8) n, r with
        | (s, .error e), _ => (s, .error e)
        | (s, .ok _), none => (s, .error .held)
        | (s, .ok l), some (.ok v) => (s, .ok (BitVec.ofNat 64 v :: l))
        | (s, .ok _), some (.error e) => (s, .error (.trap e))

/-! ### Instruction fetch (02 R32, 06 R113, R117, 07 R177) -/

/-- The instruction word at an address: as an earlier fetch holds it, or as its home does. -/
def State.fetchWord (s : State) (va : Word) : Except Trap Word32 :=
  let f : Form := { kind := .fetch, align := 0 }
  match s.check f va with
  | .error e => .error e
  | .ok x =>
    let la := s.redirect s.cur (localAddr x.pa)
    match s.tile.fetched.find? (fun p => p.1 == x.pa) with
    | some p => .ok p.2
    | none =>
      if !s.isLocal x.pa then .ok (slice (Config.remoteWord s.fresh x.pa) 0 32)
      else if s.homeBusy x.pa false then .error ⟨.waits, va, some (BitVec.ofNat 64 la)⟩
      else if (s.lostRead la).isSome then
        .error (s.addrTrap f va ⟨reasonUE, 0, false⟩)
      else .ok (BitVec.ofNat 32 (s.readMem la 4))

end Sys2Proof.Machine
end

