-- ==== Sys2Proof/Machine/Operands.lean ====
section
/-! DEFINITION. Vector operands: elements, masks, and the bound stream registers, which are read
by a pop and written by a push (05 R92, 06 R144, 09 R218). -/
namespace Sys2Proof.Machine

/-! ### Elements (05 R92) -/

/-- Element `k` of width `w` bits of an image. -/
def elem {m : Nat} (v : BitVec m) (w k : Nat) : Nat := v.toNat / 2 ^ (w * k) % 2 ^ w

/-- An image of `n` elements of width `w`, element 0 lowest; zero above them. -/
def packNat (w : Nat) (f : Nat → Nat) : Nat → Nat
  | 0 => 0
  | n + 1 => packNat w f n + f n % 2 ^ w * 2 ^ (w * n)

/-- A register image of `n` elements. -/
def pack (w n : Nat) (f : Nat → Nat) : Vec := BitVec.ofNat 512 (packNat w f n)

/-- Element `k` of width `w` is enabled by a mask (05 R92). -/
def enabled (m : Word) (w k : Nat) : Bool := if w = 4 then bitAt m (k / 2) else bitAt m k

/-- The number of elements of a width (09 R216). -/
def lanes (w : Nat) : Nat := 512 / w

/-- Every element of an instruction is enabled. -/
def allEnabled (m : Word) (w : Nat) : Bool := (List.range (lanes w)).all (enabled m w)

/-! ### Reading and writing v registers (06 R144) -/

/-- The queue entry that a read of a bound register takes. -/
def State.head (s : State) (r : Nat) : Option QEntry := (vget s.tile.queues (r - 28) []).head?

/-- V[r]: the head of its queue while the register is bound, and otherwise its contents. -/
def State.readV (s : State) (r : VReg) : Vec :=
  if s.tile.bound r.toNat then
    (match s.head r.toNat with
     | some e => e.data
     | none => 0)
  else s.readVReg r.toNat

/-- The state in which an instruction waits that reads `srcs` and writes `dsts`: on an empty
inbound queue 3, on data that have not arrived or that wait for a trap 0, on a full outbound queue
4 (06 R142, R143). -/
def State.queueWait (s : State) (srcs dsts : List VReg) : Option Nat :=
  match srcs.findSome? fun r =>
      if s.tile.bound r.toNat then
        (match s.head r.toNat with
         | none => some 3
         | some e => if e.arrived && !e.faulted then none else some 0)
      else none with
  | some k => some k
  | none =>
    if dsts.any fun r => s.tile.bound r.toNat &&
        decide (8 ≤ (vget s.tile.queues (r.toNat - 24) []).length) then some 4
    else none

/-- One entry popped for each bound register among the sources. -/
def State.popAll (s : State) (srcs : List VReg) : State :=
  (srcs.eraseDups.filter fun r => s.tile.bound r.toNat).foldl (fun s r =>
    s.onTile fun t => { t with
      queues := vset t.queues (r.toNat - 28) ((vget t.queues (r.toNat - 28) []).drop 1) }) s

/-- An entry pushed onto the outbound queue of a bound register. -/
def State.push (s : State) (r : VReg) (v : Vec) (arrived : Bool) (ticket : Nat) : State :=
  s.onTile fun t => { t with
    queues := vset t.queues (r.toNat - 24) (vget t.queues (r.toNat - 24) [] ++
      [⟨ticket, v, arrived, false⟩]) }

/-- V[r] := v with fixed latency, or a push. -/
def State.writeV (s : State) (r : VReg) (v : Vec) (lat : Nat) (st : StallCode) : State :=
  if s.tile.bound r.toNat then s.push r v true 0 else s.writeVReg r.toNat v lat st

/-- V[r] := v as a scoreboarded result, or a push. -/
def State.commitVR (s : State) (r : VReg) (v : Vec) : State :=
  if s.tile.bound r.toNat then s.push r v true 0
  else s.onTile (·.commitV (s.who == .vs) r.toNat v)

/-- The v registers that issue has to consider as read. -/
def vReads (l : List VReg) : List RegRef := l.map fun r => .v r.toNat

/-- A pop or push of a stream queue is a side effect of a task (15 R396). -/
def Tile.usesQueue (t : Tile) (l : List VReg) : Bool := l.any fun r => t.bound r.toNat

end Sys2Proof.Machine
end

