-- ==== Sys2Proof/Machine/Special.lean ====
section
/-! DEFINITION. The special functions of the SFU, correctly rounded: quotient, square root,
reciprocal, reciprocal square root, base-2 exponential and logarithm (09 R222).
The exponential and the logarithm are enclosed between two fixed-point numbers and rounded when
both ends round alike (log 13). -/
namespace Sys2Proof

/-- Digits of the integer square root below bit `k`, the root so far being `r`. -/
def isqrtFrom (n : Nat) : Nat → Nat → Nat
  | 0, r => r
  | k + 1, r => isqrtFrom n k (if (r + 2 ^ k) * (r + 2 ^ k) ≤ n then r + 2 ^ k else r)

/-- The integer square root. -/
def isqrt (n : Nat) : Nat := isqrtFrom n (n.log2 / 2 + 1) 0

/-- Round of m₁·2^e₁ / (m₂·2^e₂), both nonzero. -/
def divMag (t : ElemType) (md : FpMode) (neg : Bool) (m₁ : Nat) (e₁ : Int) (m₂ : Nat) (e₂ : Int) :
    Nat × FpFlags :=
  let k := m₂.log2 + t.fmt.manBits + 4
  let n := m₁ * 2 ^ k
  roundMag t md neg (n / m₂) (e₁ - e₂ - k) (n % m₂ != 0)

/-- VDIV (09 R222). -/
def fDiv (t : ElemType) (md : FpMode) (x y : Nat) : Nat × FpFlags :=
  let f := t.fmt
  match f.value x, f.value y with
  | .nan, _ | _, .nan => (f.canonNaN, 0#5)
  | .inf _, .inf _ => (f.canonNaN, flagNV)
  | .inf a, .fin b _ _ => (f.infinity (a != b), 0#5)
  | .fin a _ _, .inf b => (f.signed (a != b) 0, 0#5)
  | .fin a m e, .fin b k g =>
    if m = 0 ∧ k = 0 then (f.canonNaN, flagNV)
    else if k = 0 then (f.infinity (a != b), flagDZ)
    else if m = 0 then (f.signed (a != b) 0, 0#5)
    else divMag t md (a != b) m e k g

/-- VRCP (09 R222). -/
def fRcp (t : ElemType) (md : FpMode) (x : Nat) : Nat × FpFlags :=
  let f := t.fmt
  match f.value x with
  | .nan => (f.canonNaN, 0#5)
  | .inf n => (f.signed n 0, 0#5)
  | .fin n m e => if m = 0 then (f.infinity n, flagDZ) else divMag t md n 1 0 m e

/-- VSQRT (09 R222). -/
def fSqrt (t : ElemType) (md : FpMode) (x : Nat) : Nat × FpFlags :=
  let f := t.fmt
  match f.value x with
  | .nan => (f.canonNaN, 0#5)
  | .inf n => if n then (f.canonNaN, flagNV) else (f.infinity false, 0#5)
  | .fin n m e =>
    if m = 0 then (x, 0#5)
    else if n then (f.canonNaN, flagNV)
    else
      let k := 2 * (f.manBits + 4) + (e % 2).toNat
      let r := isqrt (m * 2 ^ k)
      roundMag t md false r ((e - k) / 2) (r * r != m * 2 ^ k)

/-- VRSQ (09 R222). -/
def fRsq (t : ElemType) (md : FpMode) (x : Nat) : Nat × FpFlags :=
  let f := t.fmt
  match f.value x with
  | .nan => (f.canonNaN, 0#5)
  | .inf n => if n then (f.canonNaN, flagNV) else (f.signed false 0, 0#5)
  | .fin n m e =>
    if m = 0 then (f.infinity n, flagDZ)
    else if n then (f.canonNaN, flagNV)
    else
      let k := 2 * (m.log2 + f.manBits + 6) + (e % 2).toNat
      let r := isqrt (2 ^ k / m)
      roundMag t md false r (-(e + k) / 2) (r * r * m != 2 ^ k)

/-- The number of fraction bits of the fixed-point numbers below. -/
def fracBits : Nat := 320

/-- Σ 1 / (i · 2^i) from `i` on, each term rounded down: 2^fracBits · ln 2 in the end. -/
def ln2Sum : Nat → Nat → Nat
  | 0, _ => 0
  | n + 1, i => 2 ^ fracBits / (i * 2 ^ i) + ln2Sum n (i + 1)

/-- 2^fracBits · ln 2, at most 2^10 too small. -/
def ln2Fixed : Nat := ln2Sum 330 1

/-- The terms of the exponential series of `y / 2^fracBits` from term `i` on, each rounded down. -/
def expSum (y : Nat) : Nat → Nat → Nat → Nat
  | 0, _, _ => 0
  | n + 1, i, term => term + expSum y n (i + 1) (term * y / 2 ^ fracBits / (i + 1))

/-- The error bound of both enclosures, in units of 2^−fracBits. -/
def enclosure : Nat := 2 ^ 16

/-- 2^(fr / 2^d) · 2^fracBits for 0 < fr < 2^d, less than `enclosure` too small. -/
def exp2Fixed (fr d : Nat) : Nat :=
  expSum (fr * ln2Fixed / 2 ^ d) 90 0 (2 ^ fracBits)

/-- The rounding of a number of magnitude between `lo` and `lo + enclosure` units of 2^e that
is no dyadic number: both ends round alike, which decides the rounding (log 13). -/
def roundBetween (t : ElemType) (md : FpMode) (neg : Bool) (lo : Nat) (e : Int) :
    Nat × FpFlags :=
  roundMag t md neg (lo + enclosure / 2) e true

/-- VEXP2 (09 R222): a nonzero finite x is n + fr / 2^d with n an integer. -/
def fExp2 (t : ElemType) (md : FpMode) (x : Nat) : Nat × FpFlags :=
  let f := t.fmt
  match f.value x with
  | .nan => (f.canonNaN, 0#5)
  | .inf n => if n then (f.signed false 0, 0#5) else (f.infinity false, 0#5)
  | .fin neg m e =>
    if m = 0 then roundMag t md false 1 0 false
    else
      let i : Int := if neg then -(m : Int) else m
      if 0 ≤ e then roundMag t md false 1 (i * 2 ^ e.toNat) false
      else
        let d := (-e).toNat
        let n := i / (2 ^ d : Nat)
        let fr := (i % (2 ^ d : Nat)).toNat
        if fr = 0 then roundMag t md false 1 n false
        else roundBetween t md false (exp2Fixed fr d) (n - fracBits)

/-- The terms u^(2i+1) / (2i+1) of the series of artanh, each rounded down; `p` is u^(2i+1). -/
def atanhSum (u2 : Nat) : Nat → Nat → Nat → Nat
  | 0, _, _ => 0
  | n + 1, i, p => p / (2 * i + 1) + atanhSum u2 n (i + 1) (p * u2 / 2 ^ fracBits)

/-- log2 (m / 2^m.log2) · 2^fracBits for m no power of two, within `enclosure`. -/
def log2Fixed (m : Nat) : Nat :=
  let b := 2 ^ m.log2
  let u := (m - b) * 2 ^ fracBits / (m + b)
  2 * atanhSum (u * u / 2 ^ fracBits) 110 0 u * 2 ^ fracBits / ln2Fixed

/-- VLOG2 (09 R222): x = (m / 2^m.log2) · 2^n. -/
def fLog2 (t : ElemType) (md : FpMode) (x : Nat) : Nat × FpFlags :=
  let f := t.fmt
  match f.value x with
  | .nan => (f.canonNaN, 0#5)
  | .inf n => if n then (f.canonNaN, flagNV) else (f.infinity false, 0#5)
  | .fin neg m e =>
    if m = 0 then (f.infinity true, flagDZ)
    else if neg then (f.canonNaN, flagNV)
    else
      let n : Int := e + m.log2
      if m = 2 ^ m.log2 then roundFin t md (decide (n < 0)) n.natAbs 0
      else
        let y : Int := n * 2 ^ fracBits + log2Fixed m
        roundBetween t md (decide (y < 0)) (y.natAbs - enclosure / 2) (-fracBits)

end Sys2Proof
end

