-- ==== Sys2Proof/Machine/Flags.lean ====
section
/-! DEFINITION. The flag computations: FPFLAGS of an instruction as the union over its enabled
elements (05 R99, R102), and MSTAT (10 R239). -/
namespace Sys2Proof.Machine

/-- The images of `n` elements that enabled elements compute and disabled ones keep, with the flags
of the enabled ones (09 R219). -/
def mapLanes (w n : Nat) (m : Word) (f : Nat → Nat × FpFlags) (old : Nat → Nat) : Vec × FpFlags :=
  (pack w n (fun k => if enabled m w k then (f k).1 else old k),
   (List.range n).foldl (fun fl k => if enabled m w k then fl ||| (f k).2 else fl) 0)

/-- MSTAT accumulates the flags of the matrix array; OV stands in bit 5 (10 R239). -/
def Tile.orMstat (t : Tile) (ov : Bool) (f : FpFlags) : Tile :=
  let v : Word := t.cr.mstat ||| f.setWidth 64 ||| (if ov then 0x20#64 else 0)
  { t with cr := { t.cr with mstat := v } }

/-- Flags that an execute hart gathers outside its own step: they are ORed into FPFLAGS. -/
def Tile.orFp (t : Tile) (f : FpFlags) : Tile :=
  { t with cr := { t.cr with fpflags := t.cr.fpflags ||| f.setWidth 64 } }

end Sys2Proof.Machine
end

