-- ==== Sys2Proof/Machine/LoadStore.lean ====
section
/-! DEFINITION. Scalar, vector and tile-register loads and stores (06 R130–R137). -/
namespace Sys2Proof.Machine

/-! ### Shared forms -/

/-- X[a] + imm12 (06 R130). -/
def State.addrOf (s : State) (a : XReg) (i : BitVec 12) : Word := s.readX a + i.signExtend 64

/-- The local register space (06 R113) at a physical address: read at its target at once. None
for memory and for other devices. -/
def State.regSpace (s : State) (pa : Nat) : Option Word :=
  if !s.isLocal pa then none
  else match regionOf (localAddr pa) with
    | .launch off => some (s.readLaunch off)
    | .regs off => some (s.readReg off)
    | .appRegs off => some (s.readAppReg off)
    | .hbm | .window _ _ | .appSram | .hostMem | .unmapped => none

/-- A store to the local register space is performed at its target by the next step
(06 R113): `mask` names the words of the aligned 64 bytes at `la`. -/
def State.postRegWrite (s : State) (la mask : Nat) (data : Vec) : State :=
  s.post .regSpaceWrite { EventArg.none with
    tile := s.cur, n₁ := la, n₂ := mask, n₃ := s.tile.level, w₁ := s.tile.cr.ctxid, vec := data }

/-- A checked address lies in the local register space. -/
def State.inRegSpace (s : State) (pa : Nat) : Bool := (s.regSpace pa).isSome

/-- An address in the register space of another device. -/
def State.farRegs (s : State) (pa : Nat) : Bool :=
  !s.isLocal pa && (match regionOf (localAddr pa) with
    | .launch _ | .regs _ | .appRegs _ => true
    | .hbm | .window _ _ | .appSram | .hostMem | .unmapped => false)

/-- An access of the register space, here or of another device, waits at issue until the unit's
earlier ones are performed at their targets, so that they keep the program order (06 R113). -/
def State.regsWait (s : State) (pa : Nat) : Bool :=
  (s.farRegs pa || s.inRegSpace pa) && s.tile.reqs.any fun q => q.by s.who && !q.performed &&
    q.accs.any fun a => s.farRegs a.pa

/-- A scalar load (06 R130): register space at once, and otherwise a request. -/
def scalarLoad (i : Instr) (st : StallCode) (d a : XReg) (imm : BitVec 12) (size : Nat)
    (signed : Bool) (s : State) : State :=
  let q : Issue := { word := encode i, stall := st, units := .ehAs, reads := [.x a],
                     writes := [.x d] }
  s.issue q fun s =>
    if s.loadWaits then s.stay 0
    else
      let va := s.addrOf a imm
      match s.check { kind := .load, align := size, plain8 := size == 8 } va with
      | .error e => s.raise e
      | .ok x =>
        if s.regsWait x.pa then s.stay 0
        else match s.regSpace x.pa with
        | some v => ({ s with fresh := s.fresh + 1 }.commitX d v).finish q
        | none => (s.request (s.newReq .load [x.acc size 0 0] (s.destX d size signed) va)).finish q

/-- A scalar store (06 R130): it enters the store queue of its unit. -/
def scalarStore (i : Instr) (st : StallCode) (b a : XReg) (imm : BitVec 12) (size : Nat)
    (s : State) : State :=
  let q : Issue := { word := encode i, stall := st, units := .ehSs, reads := [.x a, .x b],
                     side := true }
  s.issue q fun s =>
    if s.storeWaits then s.stay 0
    else
      let va := s.addrOf a imm
      match s.check { kind := .store, align := size, plain8 := size == 8 } va with
      | .error e => s.raise e
      | .ok x =>
        let v := (s.readX b).toNat % 256 ^ size
        if s.regsWait x.pa then s.stay 0
        else if s.inRegSpace x.pa then
          let la := localAddr x.pa
          (s.postRegWrite (la / 64 * 64) (2 ^ (la % 64 / 8))
            (BitVec.ofNat 512 (v * 256 ^ (la % 64)))).finish q
        else
          (s.request (s.newReq .store [x.acc size 0 v] .none va)).finish q

/-! ### Scalar loads and stores -/

/-- LB (06 R130). -/
def execLb (st : StallCode) (d a : XReg) (i : BitVec 12) (s : State) :
    Host.Outcome State Fault Refusal :=
  .next (scalarLoad (.lb st d a i) st d a i 1 true s)

/-- LH (06 R130). -/
def execLh (st : StallCode) (d a : XReg) (i : BitVec 12) (s : State) :
    Host.Outcome State Fault Refusal :=
  .next (scalarLoad (.lh st d a i) st d a i 2 true s)

/-- LW (06 R130). -/
def execLw (st : StallCode) (d a : XReg) (i : BitVec 12) (s : State) :
    Host.Outcome State Fault Refusal :=
  .next (scalarLoad (.lw st d a i) st d a i 4 true s)

/-- LD (06 R130). -/
def execLd (st : StallCode) (d a : XReg) (i : BitVec 12) (s : State) :
    Host.Outcome State Fault Refusal :=
  .next (scalarLoad (.ld st d a i) st d a i 8 false s)

/-- LBU (06 R130). -/
def execLbu (st : StallCode) (d a : XReg) (i : BitVec 12) (s : State) :
    Host.Outcome State Fault Refusal :=
  .next (scalarLoad (.lbu st d a i) st d a i 1 false s)

/-- LHU (06 R130). -/
def execLhu (st : StallCode) (d a : XReg) (i : BitVec 12) (s : State) :
    Host.Outcome State Fault Refusal :=
  .next (scalarLoad (.lhu st d a i) st d a i 2 false s)

/-- LWU (06 R130). -/
def execLwu (st : StallCode) (d a : XReg) (i : BitVec 12) (s : State) :
    Host.Outcome State Fault Refusal :=
  .next (scalarLoad (.lwu st d a i) st d a i 4 false s)

/-- SB (06 R130). -/
def execSb (st : StallCode) (b a : XReg) (i : BitVec 12) (s : State) :
    Host.Outcome State Fault Refusal :=
  .next (scalarStore (.sb st b a i) st b a i 1 s)

/-- SH (06 R130). -/
def execSh (st : StallCode) (b a : XReg) (i : BitVec 12) (s : State) :
    Host.Outcome State Fault Refusal :=
  .next (scalarStore (.sh st b a i) st b a i 2 s)

/-- SW (06 R130). -/
def execSw (st : StallCode) (b a : XReg) (i : BitVec 12) (s : State) :
    Host.Outcome State Fault Refusal :=
  .next (scalarStore (.sw st b a i) st b a i 4 s)

/-- SD (06 R130). -/
def execSd (st : StallCode) (b a : XReg) (i : BitVec 12) (s : State) :
    Host.Outcome State Fault Refusal :=
  .next (scalarStore (.sd st b a i) st b a i 8 s)

/-! ### Vector transfers (06 R132–R135, R137, R144) -/

/-- Where a load into V[d] goes: an entry of the outbound queue is reserved while d is bound (06
R144). `old` is the image of d whose disabled parts stay; `pops` says that it came from a pop. -/
def State.destV (s : State) (d : VReg) (old : Vec) (pops : Bool) : State × Dest :=
  if s.tile.bound d.toNat then
    let s := if pops then s.popAll [d] else s
    let ticket := s.fresh + 1
    (s.push d old false ticket, .queue (d.toNat - 24) ticket)
  else (s, .v d.toNat old)

/-- A vector load of the pieces at checked addresses (06 R133–R135). `whole` says that no part of
d keeps its old contents. -/
def vectorLoad (q : Issue) (d : VReg) (f : Form) (n w : Nat) (m : MReg) (base : State → Word)
    (addr : State → Nat → Word) (each : Bool) (srcs : List VReg) (s : State) : State :=
  s.issue q fun s =>
    let mask := s.readM m
    let on := (List.range n).filter (bitAt mask)
    let part := decide (on.length < n)
    if on.isEmpty then
      (match s.queueWait srcs [] with
       | some k => s.stay k
       | none => (s.popAll srcs).finish { q with side := s.tile.usesQueue srcs })
    else
      if s.loadWaits then s.stay 0
      else match s.queueWait (if part then d :: srcs else srcs) [d] with
        | some k => s.stay k
        | none =>
          let checked := if each then s.checkAll f (on.map (addr s)) else
            match s.check f (base s) with
            | .error e => .error e
            | .ok x => .ok (on.map fun k => { x with pa := x.pa + w * k })
          match checked with
          | .error e => s.raise e
          | .ok xs =>
            let accs := (xs.zip on).map fun p => p.1.acc w (w * p.2) 0
            let va := if each then (on.map (addr s)).headD 0 else base s
            let side := s.tile.usesQueue (d :: srcs)
            let (s, dest) := s.destV d (if part then s.readV d else 0) part
            let s := s.popAll (srcs.filter fun r => !(part && r == d))
            (s.request (s.newReq .load accs dest va)).finish { q with side := side }

/-- A vector store of the pieces at checked addresses (06 R133–R135). -/
def vectorStore (q : Issue) (v : VReg) (f : Form) (n w : Nat) (m : MReg) (base : State → Word)
    (addr : State → Nat → Word) (each : Bool) (srcs : List VReg) (s : State) : State :=
  s.issue q fun s =>
    let mask := s.readM m
    let on := (List.range n).filter (bitAt mask)
    if s.storeWaits then s.stay 0
    else match s.queueWait (v :: srcs) [] with
      | some k => s.stay k
      | none =>
        if on.isEmpty then (s.popAll (v :: srcs)).finish q
        else
          let checked := if each then s.checkAll f (on.map (addr s)) else
            match s.check f (base s) with
            | .error e => .error e
            | .ok x => .ok (on.map fun k => { x with pa := x.pa + w * k })
          match checked with
          | .error e => s.raise e
          | .ok xs =>
            if s.regsWait (xs.headD ⟨0, false, false, none⟩).pa then s.stay 0 else
            let data := (s.readV v).toNat
            let accs := (xs.zip on).map fun p =>
              p.1.acc w (w * p.2) (data / 256 ^ (w * p.2) % 256 ^ w)
            let va := if each then (on.map (addr s)).headD 0 else base s
            let s' := s.popAll (v :: srcs)
            (match xs with
             | x :: _ =>
               if s.inRegSpace x.pa then
                 s'.postRegWrite (localAddr x.pa / 64 * 64) (slice mask 0 8).toNat
                   (BitVec.ofNat 512 data)
               else s'.request (s'.newReq .store accs .none va)
             | [] => s').finish q

/-- The address of VLD and VST (06 R133). -/
def State.vldAddr (s : State) (a : XReg) (o : BitVec 9) : Word := s.readX a + o.signExtend 64 * 64

/-- The address of element k of VLDS and VSTS (06 R134). -/
def State.stridedAddr (s : State) (a b : XReg) (k : Nat) : Word :=
  s.readX a + BitVec.ofNat 64 k * s.readX b

/-- The address of element k of VGATH and VSCAT with elements of `w` bytes (06 R135). -/
def State.gatherAddr (s : State) (a : XReg) (b : VReg) (w k : Nat) : Word :=
  s.readX a + BitVec.ofInt 64 (signedAt w (elem (s.readV b) (8 * w) k)) * BitVec.ofNat 64 w

/-- Every element of `n` is enabled by the mask, so that no old contents are read. -/
def State.maskFull (s : State) (m : MReg) (n : Nat) : Bool :=
  (List.range n).all (bitAt (s.readM m))

/-- The registers that a masked load reads beside its operands. -/
def State.oldRead (s : State) (d : VReg) (m : MReg) (n : Nat) : List RegRef :=
  if s.maskFull m n then [] else [.v d.toNat]

/-- VLD (06 R133). -/
def execVld (st : StallCode) (d : VReg) (a : XReg) (m : MReg) (o : BitVec 9) (s : State) :
    Host.Outcome State Fault Refusal :=
  let q : Issue := { word := encode (.vld st d a m o), stall := st,
                     reads := [.x a, .m m] ++ s.oldRead d m 8, writes := [.v d.toNat] }
  .next (vectorLoad q d { kind := .load, align := 64 } 8 8 m (·.vldAddr a o)
    (fun s _ => s.vldAddr a o) false [] s)

/-- VST (06 R133). -/
def execVst (st : StallCode) (d : VReg) (a : XReg) (m : MReg) (o : BitVec 9) (s : State) :
    Host.Outcome State Fault Refusal :=
  let q : Issue := { word := encode (.vst st d a m o), stall := st, side := true,
                     reads := [.x a, .m m, .v d.toNat] }
  .next (vectorStore q d { kind := .store, align := 64, vst := true } 8 8 m (·.vldAddr a o)
    (fun s _ => s.vldAddr a o) false [] s)

/-- VLDS (06 R134). -/
def execVlds (st : StallCode) (d : VReg) (a b : XReg) (m : MReg) (w : BitVec 2) (s : State) :
    Host.Outcome State Fault Refusal :=
  let z := 2 ^ w.toNat
  let q : Issue := { word := encode (.vlds st d a b m w), stall := st,
                     reads := [.x a, .x b, .m m] ++ s.oldRead d m (64 / z), writes := [.v d.toNat] }
  .next (vectorLoad q d { kind := .load, align := z } (64 / z) z m (·.readX a)
    (fun s k => s.stridedAddr a b k) true [] s)

/-- VSTS (06 R134). -/
def execVsts (st : StallCode) (d : VReg) (a b : XReg) (m : MReg) (w : BitVec 2) (s : State) :
    Host.Outcome State Fault Refusal :=
  let z := 2 ^ w.toNat
  let q : Issue := { word := encode (.vsts st d a b m w), stall := st, side := true,
                     reads := [.x a, .x b, .m m, .v d.toNat] }
  .next (vectorStore q d { kind := .store, align := z } (64 / z) z m (·.readX a)
    (fun s k => s.stridedAddr a b k) true [] s)

/-- VGATH (06 R135). -/
def execVgath (st : StallCode) (d : VReg) (a : XReg) (b : VReg) (m : MReg) (w : BitVec 2)
    (s : State) : Host.Outcome State Fault Refusal :=
  let z := 2 ^ w.toNat
  let q : Issue := { word := encode (.vgath st d a b m w), stall := st,
                     reads := [.x a, .v b.toNat, .m m] ++ s.oldRead d m (64 / z),
                     writes := [.v d.toNat] }
  .next (vectorLoad q d { kind := .load, align := z } (64 / z) z m (·.readX a)
    (fun s k => s.gatherAddr a b z k) true [b] s)

/-- VSCAT (06 R135). -/
def execVscat (st : StallCode) (d : VReg) (a : XReg) (b : VReg) (m : MReg) (w : BitVec 2)
    (s : State) : Host.Outcome State Fault Refusal :=
  let z := 2 ^ w.toNat
  let q : Issue := { word := encode (.vscat st d a b m w), stall := st, side := true,
                     reads := [.x a, .v b.toNat, .m m, .v d.toNat] }
  .next (vectorStore q d { kind := .store, align := z } (64 / z) z m (·.readX a)
    (fun s k => s.gatherAddr a b z k) true [b] s)

/-! ### Tile registers (06 R136) -/

/-- Rows and row length of a tile register's view (10 R237). -/
def Tile.rows (t : Tile) (k : TReg) : Nat := (slice (vget t.cr.shape k.toNat 0) 0 7).toNat
def Tile.colb (t : Tile) (k : TReg) : Nat := (slice (vget t.cr.shape k.toNat 0) 8 7).toNat

/-- Another member's window is open in the row: the instruction waits at issue (10 R261). -/
def State.gangHeld (s : State) : Bool :=
  match s.tile.window with
  | some w => w.lead != s.cur % 8
  | none => false

/-- The addresses of the rows of a transfer (06 R136). -/
def State.rowAddrs (s : State) (t : TReg) (a b : XReg) : List Word :=
  (List.range (s.tile.rows t)).map fun j => s.stridedAddr a b j

/-- Every word of every row is checked before any is performed; a failure names its row (06
R137). -/
def State.checkRows (s : State) (f : Form) (n : Nat) : List Word → Except Trap (List (List Xlat))
  | [] => .ok []
  | va :: rest =>
    match s.checkAll f ((List.range ((n + 7) / 8)).map fun k => va + BitVec.ofNat 64 (8 * k)) with
    | .error e => .error { e with tval := if e.mfinfo.isSome then va else e.tval }
    | .ok ws => match s.checkRows f n rest with
      | .error e => .error e
      | .ok rows => .ok (ws :: rows)

/-- The aligned 8-byte words of rows of `n` bytes, at their places in a tile register; `data` gives
the image of a row. -/
def rowAccs (rows : List (List Xlat)) (n : Nat) (data : Nat → Nat) : List Acc :=
  rows.zipIdx.flatMap fun r => r.1.zipIdx.flatMap fun w =>
    w.1.words (min 8 (n - 8 * w.2)) (64 * r.2 + 8 * w.2) (data r.2 / 256 ^ (8 * w.2))

/-- TLD (06 R136). -/
def execTld (st : StallCode) (t : TReg) (a b : XReg) (s : State) :
    Host.Outcome State Fault Refusal :=
  let q : Issue := { word := encode (.tld st t a b), stall := st, reads := [.x a, .x b],
                     writes := [.t t] }
  .next (s.issue q fun s =>
    if s.gangHeld || s.loadWaits || s.frameBusy (.t t) then s.stay 0
    else match s.checkRows { kind := .load, align := 8 } (s.tile.colb t) (s.rowAddrs t a b) with
      | .error e => s.raise e
      | .ok rows =>
        let accs := rowAccs rows (s.tile.colb t) fun _ => 0
        (s.request (s.newReq .load accs (.t t.toNat) (s.readX a))).finish q)

/-- Row j of a tile register as a number. -/
def Tile.rowImage (t : Tile) (k : TReg) (j : Nat) : Nat :=
  (vget (vget t.t k.toNat (Vector.replicate 64 0)) j 0).toNat

/-- TST (06 R136). -/
def execTst (st : StallCode) (t : TReg) (a b : XReg) (s : State) :
    Host.Outcome State Fault Refusal :=
  let q : Issue := { word := encode (.tst st t a b), stall := st, reads := [.x a, .x b, .t t],
                     side := true }
  .next (s.issue q fun s =>
    if s.gangHeld || s.storeWaits then s.stay 0
    else match s.checkRows { kind := .store, align := 8 } (s.tile.colb t) (s.rowAddrs t a b) with
      | .error e => s.raise e
      | .ok rows =>
        if s.tile.unsound.contains t.toNat then s.matrixError q s.cur
        else
        let accs := rowAccs rows (s.tile.colb t) (s.tile.rowImage t)
        (s.request (s.newReq .store accs .none (s.readX a))).finish q)

end Sys2Proof.Machine
end

