-- ==== Sys2Proof/Machine/Stream.lean ====
section
/-! DEFINITION. Stream queues and the sequencers (06 R142–R149, 04 R85, R86). -/
namespace Sys2Proof.Machine

/-! ### QLD and QST (06 R143) -/

/-- QLD: an inbound entry is reserved at issue, and its data arrive later (06 R142, R143). -/
def execQld (st : StallCode) (n : BitVec 2) (a : XReg) (i : BitVec 12) (s : State) :
    Host.Outcome State Fault Refusal :=
  let q : Issue := { word := encode (.qld st n a i), stall := st, units := .as, reads := [.x a] }
  .next (s.issue q fun s =>
    if s.loadWaits then s.stay 0
    else if 8 ≤ (vget s.tile.queues n.toNat []).length then s.stay 4
    else
      let va := s.addrOf a i
      match s.check { kind := .load, align := 64 } va with
      | .error e => s.raise e
      | .ok x =>
        let ticket := s.fresh + 1
        let s := s.onTile fun t => { t with
          queues := vset t.queues n.toNat
            (vget t.queues n.toNat [] ++ [⟨ticket, 0, false, false⟩]) }
        (s.request (s.newReq .load (x.words 64 0 0) (.queue n.toNat ticket) va)).finish q)

/-- QST: an outbound entry is popped and its 64 bytes stored (06 R143). -/
def execQst (st : StallCode) (n : BitVec 2) (a : XReg) (i : BitVec 12) (s : State) :
    Host.Outcome State Fault Refusal :=
  let q : Issue := { word := encode (.qst st n a i), stall := st, units := .ss, reads := [.x a] }
  .next (s.issue q fun s =>
    match vget s.tile.queues (n.toNat + 4) [] with
    | [] => s.stay 3
    | e :: rest =>
      if !e.arrived || s.storeWaits then s.stay 0
      else
        let va := s.addrOf a i
        match s.check { kind := .store, align := 64 } va with
        | .error e => s.raise e
        | .ok x =>
          let s := s.onTile fun t => { t with queues := vset t.queues (n.toNat + 4) rest }
          (s.request (s.newReq .store (x.words 64 0 e.data.toNat) .none va)).finish q)

/-! ### Bindings (06 R145) -/

/-- QBIND: binds v(28 + k) for each set bit k of X[B][3:0] (06 R145). -/
def execQbind (st : StallCode) (a : XReg) (s : State) : Host.Outcome State Fault Refusal :=
  let q : Issue := { word := encode (.qbind st a), stall := st, serial := true, reads := [.x a] }
  .next (s.issue q fun s =>
    (s.onTile fun t => { t with bind := t.bind ||| slice (s.readX a) 0 4 }).finish q)

/-- QUNBIND (06 R145). -/
def execQunbind (st : StallCode) (a : XReg) (s : State) : Host.Outcome State Fault Refusal :=
  let q : Issue := { word := encode (.qunbind st a), stall := st, serial := true, reads := [.x a] }
  .next (s.issue q fun s =>
    (s.onTile fun t => { t with bind := t.bind &&& ~~~(slice (s.readX a) 0 4) }).finish q)

/-! ### The sequencers (06 R146–R148) -/

/-- The sequencer that field U names: 0 the access sequencer, 1 the store sequencer. -/
def seqUnit (u : BitVec 1) : UnitId := if u = 0 then .as else .ss

def Tile.seq (t : Tile) : UnitId → Sequencer
  | .ss => t.stSeq
  | .eh | .vs | .as => t.acSeq

def Tile.setSeq (t : Tile) (u : UnitId) (q : Sequencer) : Tile :=
  match u with
  | .ss => { t with stSeq := q }
  | .eh | .vs | .as => { t with acSeq := q }

/-- A sequencer stops at an instruction boundary (06 R147, 04 R86). -/
def Sequencer.stop (q : Sequencer) : Sequencer :=
  { q with running := false, core := { q.core with x := q.core.x.settle, wait := 5 } }

/-- A line of an image is read for its copy: the sectors of which the tile has no copy at their
home, where errors are found. The data, or the first sector that is lost. -/
def State.readLine (s : State) (la : Nat) : State × Except Nat (BitVec 1024) :=
  let one (s : State) (a : Nat) : State :=
    if (s.tile.copyAt a).isSome then s else s.detect (sectorOf a)
  let s := one (one s la) (la + 64)
  match [la, la + 64].find? fun a => (s.tile.copyAt a).isNone && s.lost (sectorOf a) with
  | some a => (s, .error a)
  | none => (s, .ok (BitVec.ofNat 1024 (readLE (s.tileByte s.cur) la 128)))

/-- A line of an image copy waits: for the barrier of the compact that has pinned it, or at its home
(13 R335, 17 R432, R444). -/
def State.lineWaits (s : State) (c : ImageCopy) (pa : Nat) : Bool :=
  s.isLocal pa && !(c.served.any (·.1 == pa)) &&
    (s.pinnedByOther (localAddr pa) ||
      ((s.tile.copyAt (localAddr pa)).isNone && s.homeBusy pa false))

/-- A line of an image: as it was served at a compact, as it reads now, or, on another device,
free. -/
def State.imageLine (s : State) (c : ImageCopy) (pa : Nat) : State × Except Nat (BitVec 1024) :=
  match c.served.find? (·.1 == pa) with
  | some (_, .inl la) => (s, .error la)
  | some (_, .inr v) => (s, .ok v)
  | none =>
    if s.isLocal pa then s.readLine (s.redirect s.cur (localAddr pa))
    else (s, .ok (BitVec.ofNat 1024 (farBytes s.fresh pa 128)))

/-- The lines of an image in turn, the first lost one ending them with its number. -/
def State.imageLines (s : State) (c : ImageCopy) :
    List (Nat × Nat) → State × Except (Nat × Nat) (List (BitVec 1024))
  | [] => (s, .ok [])
  | (pa, k) :: rest =>
    match s.imageLine c pa with
    | (s, .error la) => (s, .error (k, la))
    | (s, .ok v) =>
      match s.imageLines c rest with
      | (s, .error e) => (s, .error e)
      | (s, .ok vs) => (s, .ok (v :: vs))

/-- The image copy of a QSTART ends, unless a line of it waits: the sequencer starts at pc 0, or
stays stopped with an unspecified store after an uncorrectable error (06 R146). -/
def State.endCopy (s : State) (u : UnitId) : State :=
  match (s.tile.seq u).copying with
  | none => s
  | some c =>
    if c.lines.any (s.lineWaits c) then s
    else match s.imageLines c c.lines.zipIdx with
      | (s, .error (k, la)) =>
        let junk := (List.range c.len).foldl (fun (m : Memory) i =>
          m.write i (slice (Config.freeWord (s.fresh + i)) 0 8)) []
        let s := { s with fresh := s.fresh + c.len }
        let s := s.onTile fun t =>
          t.setSeq u { (t.seq u).stop with copying := none, store := junk }
        (s.reportLost s.tile.ctx la).deliverError ⟨Cause.dataerr.code,
          c.va + BitVec.ofNat 64 (128 * k), some (mfinfoOf 0 0 0 reasonUE)⟩
      | (s, .ok ls) =>
        let byte (i : Nat) : Byte := slice (ls.getD (i / 128) 0) (8 * (i % 128)) 8
        let image := (List.range c.len).foldl (fun (m : Memory) i => m.write i (byte i)) []
        s.onTile fun t =>
          let q := t.seq u
          t.setSeq u { q with copying := none, store := image, running := true,
                              core := { q.core with pc := 0, wait := 0 } }

/-- The x registers with which a sequencer starts: those that the execute hart reads (06 R146). -/
def State.startRegs (s : State) : RegFile 40 64 :=
  (List.range 32).foldl (fun f r => f.commit r (s.readX (BitVec.ofNat 5 r))) (RegFile.zero 40 64)

/-- The queues that a QSTART empties (06 R146, 04 R85). -/
def Tile.emptyFor (t : Tile) : UnitId → Tile
  | .ss => { t with boqS := [] }
  | .eh | .vs | .as =>
    { t with
      boqA := [], boqE := []
      queues := (List.range 4).foldl (fun q k => vset q k []) t.queues }

/-- QSTART (06 R146, R148). It reads x1 to x31, which the sequencer starts with, X[B] and X[C] among
them. -/
def execQstart (st : StallCode) (u : BitVec 1) (a b : XReg) (s : State) :
    Host.Outcome State Fault Refusal :=
  let q : Issue := { word := encode (.qstart st u a b), stall := st,
                     reads := (List.range 31).map fun k => .x (BitVec.ofNat 5 (k + 1)) }
  .next (s.issue q fun s =>
    let un := seqUnit u
    let va := s.readX a
    let len := (s.readX b).toNat
    if (s.tile.seq un).copying.isSome || s.acquiring || !s.releasedAt 0 then s.stay 0
    else if va.toNat % 128 ≠ 0 then s.raise ⟨.misalign, va, some (mfinfoOf 0 0 0 0)⟩
    else if len % 4 ≠ 0 ∨ len < 4 ∨ 16384 < len then
      s.raise ⟨.loadfault, va, some (mfinfoOf 0 0 0 reasonBADSEQ)⟩
    else match s.checkAll { kind := .load, align := 128 }
        ((List.range ((len + 127) / 128)).map fun k => va + BitVec.ofNat 64 (128 * k)) with
      | .error e => s.raise e
      | .ok xs =>
        let regs := s.startRegs
        let s := s.onTile fun t =>
          let q := (t.seq un).stop
          (t.setSeq un { q with
            core := { q.core with x := regs, pc := 0 }
            copying := some ⟨xs.map (·.pa), len, va, []⟩ }).emptyFor un
        (if s.choice.defer then s else s.endCopy un).finish q)

/-- QSTOP (06 R147). -/
def execQstop (st : StallCode) (u : BitVec 1) (s : State) : Host.Outcome State Fault Refusal :=
  let q : Issue := { word := encode (.qstop st u), stall := st }
  .next (s.issue q fun s =>
    if (s.tile.seq (seqUnit u)).copying.isSome then s.stay 0
    else (s.onTile fun t => t.setSeq (seqUnit u) (t.seq (seqUnit u)).stop).finish q)

/-- Every access that a unit has issued is performed at its home (06 R147). -/
def Tile.quiet (t : Tile) (u : UnitId) : Bool := t.reqs.all fun r => !r.by u || r.performed

/-- QWAIT: on the execute hart for a stopped sequencer and its accesses, on a sequencer for its own
accesses (06 R147). -/
def execQwait (st : StallCode) (u : BitVec 1) (s : State) : Host.Outcome State Fault Refusal :=
  let q : Issue := { word := encode (.qwait st u), stall := st, units := .all,
                     illegal := fun s => s.who != .eh && u != 0 }
  .next (s.issue q fun s =>
    let un := if s.who = .eh then seqUnit u else s.who
    let sq := s.tile.seq un
    if (s.who = .eh && (sq.running || sq.copying.isSome)) || !s.tile.quiet un then s.stay 0
    else s.finish q)

/-! ### Steps of the queues and of the tile -/

/-- QLD_DATA_ARRIVAL: the data of a QLD fill its entry, or are discarded when it was cancelled
(06 R142, R143, R146). `n₁` numbers the request. -/
def execQldDataArrival (s : State) : Host.Outcome State Fault Refusal :=
  .next (s.atTile s.arg.tile fun s =>
    match s.req s.arg.n₁ with
    | some q => (match q.dest with
        | .queue _ _ => s.respond q.id
        | .none | .x _ _ _ | .x2 _ _ | .v _ _ | .t _ => s)
    | none => s)

/-- QSTART_COPY_DONE: `n₁` names the sequencer (06 R146). -/
def execQstartCopyDone (s : State) : Host.Outcome State Fault Refusal :=
  .next (s.atTile s.arg.tile fun s => s.endCopy (if s.arg.n₁ = 0 then .as else .ss))

end Sys2Proof.Machine
end

