-- ==== Sys2Proof/Machine/FullEmpty.lean ====
section
/-! DEFINITION. Full/empty words (06 R138–R141, R151), the task loop that a squash continues
(15 R394, R395), and the maintenance of tile caches (06 R150). -/
namespace Sys2Proof.Machine

/-! ### Words and their bits -/

/-- The word at a byte offset of the SRAM is EMPTY (06 R138). -/
def Tile.isEmpty (t : Tile) (o : Nat) : Bool := t.empty.contains o

def Tile.setFull (t : Tile) (o : Nat) : Tile := { t with empty := removeNat t.empty o }

def Tile.setEmpty (t : Tile) (o : Nat) : Tile := { t with empty := insertNat t.empty o }

/-- The data of a word of the SRAM. -/
def Tile.feData (t : Tile) (o : Nat) : Word := BitVec.ofNat 64 (readLE t.sram.read o 8)

/-- The data of a word of the SRAM, written. -/
def Tile.feStore (t : Tile) (o : Nat) (v : Word) : Tile :=
  writeLE (fun (t : Tile) a b => t.windowStore a b) t o v.toNat 8

/-- The tile and the offset that a checked F/E address names. -/
def fePlace (pa : Nat) : Nat × Nat :=
  match regionOf (localAddr pa) with
  | .window n off => (n, off)
  | .hbm | .launch _ | .regs _ | .appSram | .appRegs _ | .hostMem | .unmapped => (0, 0)

/-- The F/E request of the tile in focus that waits: the tile that holds it, and the request. -/
def State.myWait (s : State) : Option (Nat × FeWait) :=
  s.tiles.findSome? fun p =>
    (p.2.feWaits.find? fun w => w.tile == s.cur && w.task.isNone).map fun w => (p.1, w)

/-- The waiting request of tile `me` removed from the table of tile `n`. -/
def State.dropWait (s : State) (n me : Nat) : State :=
  s.modTile n fun t => { t with
    feWaits := t.feWaits.filter fun w => !(w.tile == me && w.task.isNone) }

/-- The waiting table of tile `n` is full (06 R139). -/
def Tile.feTableFull (t : Tile) : Bool := decide (32 ≤ (t.feWaits.filter (·.served.isNone)).length)

def State.addWait (s : State) (n : Nat) (w : FeWait) : State :=
  s.modTile n fun t => { t with feWaits := t.feWaits ++ [w] }

/-- A parked task becomes READY at the tail of its hart's table (15 R395). -/
def State.readyTask (s : State) (tile id : Nat) : State :=
  s.modTile tile fun t => { t with
    tasks := { t.tasks with
      ready := t.tasks.ready ++ t.tasks.parked.filter (·.id == id)
      parked := t.tasks.parked.filter (·.id != id) } }

/-- Every task parked at a word becomes READY (15 R395, 06 R121). -/
def State.unparkTasks (s : State) (n o : Nat) : State :=
  let ws := (s.getTile n).feWaits.filter fun w => w.addr == o && w.task.isSome
  let s := s.modTile n fun t => { t with
    feWaits := t.feWaits.filter fun w => !(w.addr == o && w.task.isSome) }
  ws.foldl (fun s w => s.readyTask w.tile (w.task.getD 0)) s

/-- Waiting requests on a word are served in arrival order while its state allows (06 R139). -/
def State.serveWaits (s : State) (n o : Nat) : Nat → State
  | 0 => s
  | k + 1 =>
    let t := s.getTile n
    let full := !t.isEmpty o
    let next := t.feWaits.find? fun w =>
      w.addr == o && w.served.isNone && w.task.isNone && !w.held &&
        (match w.kind with
         | .ldw | .ldwe => full
         | .stw => !full
         | .feget => true)
    match next with
    | none => s
    | some w =>
      let v : Word := match w.kind with
        | .ldw | .ldwe => t.feData o
        | .stw => 0
        | .feget => bit full
      let t := { t with feWaits := t.feWaits.map fun x =>
        if x.tile = w.tile ∧ x.task = none then { x with served := some v } else x }
      let t := match w.kind with
        | .ldw | .feget => t
        | .ldwe => t.setEmpty o
        | .stw => (t.feStore o w.data).setFull o
      let s := s.setTile n t
      let s := if w.kind = .stw then s.unparkTasks n o else s
      s.serveWaits n o k

/-- The state of a word has changed: waiting requests are served, and, on a fill, parked tasks
become READY (06 R139, 15 R395). -/
def State.feChanged (s : State) (n o : Nat) (fill : Bool) : State :=
  let s := if fill then s.unparkTasks n o else s
  s.serveWaits n o ((s.getTile n).feWaits.length + 1)

/-! ### The task loop (15 R394) -/

/-- The task loop: the oldest READY task starts, or the loop ends at TASKRET. A start acquires: it
is the destination of the edge from the TASKQ (07 R157, R158). -/
def State.taskLoop (s : State) (q : Issue) : State :=
  match s.tile.tasks.ready with
  | [] => s.finishAt { q with side := false } s.tile.cr.taskret
  | t :: rest =>
    let s := s.onTile fun tl => { tl with
      tasks := { tl.tasks with
        ready := rest, running := some t, side := false
        startFlags := tl.cr.fpflags, startMstat := tl.cr.mstat } }
    (s.acquire.commitX 10#5 t.arg).finishAt { q with side := false } t.routine

/-- The running task is squashed and recorded at the word it reads (15 R395). -/
def State.squash (s : State) (n o : Nat) (t : Task) : State :=
  let s := s.addWait n ⟨o, .ldw, s.cur, 0, none, some t.id, false, 0⟩
  s.onTile fun tl => { tl with
    tasks := { tl.tasks with running := none, parked := tl.tasks.parked ++ [t] }
    cr := { tl.cr with fpflags := tl.tasks.startFlags, mstat := tl.tasks.startMstat } }

/-! ### The instructions (06 R138, R141, R151) -/

/-- The form of an F/E access that loads, and of one that does not. -/
def feLoad : Form := { kind := .atomic, align := 8, fe := true, loads := true }
def feWrite : Form := { kind := .atomic, align := 8, fe := true }

/-- An uncorrectable error in the word is found: the request performs nothing (08 R201). -/
def State.feLost (s : State) (pa : Nat) (va : Word) : Option State :=
  let s := s.detect (sectorOf (localAddr pa))
  if s.lost (sectorOf (localAddr pa)) then
    some ((s.reportLost s.tile.ctx (localAddr pa)).deliverError
      ⟨Cause.dataerr.code, va, some (mfinfoOf 0 0 3 reasonUE)⟩)
  else none

/-- The request waits at the word, or is refused by a full table and sent again (06 R139). -/
def State.feWait (s : State) (n : Nat) (w : FeWait) : State :=
  if (s.getTile n).feTableFull then s.stay 0 else (s.addWait n w).stay 0

/-- LDW, LDWE, LDF and FEGET. An LDF of a task that was held at a pinned range and then finds its
word EMPTY squashes the task (13 R335, 15 R395). -/
def feRead (i : Instr) (st : StallCode) (d a : XReg) (addr : State → Word) (k : FeKind)
    (future side : Bool) (s : State) : State :=
  let q : Issue := { word := encode i, stall := st, reads := [.x a], writes := [.x d], side := side }
  s.issue q fun s =>
    let va := addr s
    let task := s.tile.tasks.running
    if future && task.isSome && s.tile.tasks.side then s.raise ⟨.feorder, va, none⟩
    else match s.myWait with
      | some (n, w) =>
        (match w.served with
         | none =>
           (match future && !w.held && (s.getTile n).isEmpty w.addr, task with
            | true, some tk => ((s.dropWait n s.cur).squash n w.addr tk).taskLoop q
            | true, none | false, _ => s.stay 0)
         | some v =>
           let s := (s.dropWait n s.cur).commitX d v
           (if k = .feget ∧ v = 0 then s else s.acquire).finish q)
      | none =>
        if s.loadWaits then s.stay 0
        else match s.check feLoad va with
          | .error e => s.raise e
          | .ok x =>
            let (n, o) := fePlace x.pa
            let wait : FeWait := ⟨o, k, s.cur, 0, none, none, false, s.ir⟩
            if s.wordsBusy [x.pa] (k == .ldwe) false || s.homeBusy x.pa false then s.stay 0
            else if s.pinnedByOther (localAddr x.pa) then s.feWait n { wait with held := true }
            else match s.feLost x.pa va with
              | some s => s.finish q
              | none =>
                let s := s.detect (sectorOf (localAddr x.pa))
                let t := s.getTile n
                if k = .feget then
                  let s := s.commitX d (bit (!t.isEmpty o))
                  (if t.isEmpty o then s else s.acquire).finish q
                else if t.isEmpty o then
                  (match future, task with
                   | true, some tk =>
                     if t.feTableFull then s.stay 0 else (s.squash n o tk).taskLoop q
                   | true, none | false, _ => s.feWait n wait)
                else
                  let s := (s.commitX d (t.feData o)).acquire
                  (if k = .ldwe then (s.modTile n (·.setEmpty o)).feChanged n o false
                   else s).finish q

/-- STW, STF and FESET. `store` is the data to store, `fill` the state after it. -/
def feWriteOp (i : Instr) (st : StallCode) (a : XReg) (rs : List RegRef) (addr : State → Word)
    (store : State → Option Word) (fill : State → Bool) (waits : Bool) (s : State) : State :=
  let q : Issue := { word := encode i, stall := st, reads := .x a :: rs, side := true }
  s.issue q fun s =>
    let va := addr s
    match s.myWait with
    | some (n, w) => if w.served.isSome then (s.dropWait n s.cur).finish q else s.stay 0
    | none =>
      if s.acquiring || (fill s && !s.released) then s.stay 0
      else match s.check feWrite va with
        | .error e => s.raise e
        | .ok x =>
          let (n, o) := fePlace x.pa
          if s.wordsBusy [x.pa] true false || s.homeBusy x.pa true then s.stay 0
          else if waits && !(s.getTile n).isEmpty o then
            s.feWait n ⟨o, .stw, s.cur, (store s).getD 0, none, none, false, s.ir⟩
          else
            let full := fill s
            let data := store s
            let s := match data with
              | some v => (s.modTile n (·.feStore o v)).mailboxTriggers [(localAddr x.pa, 8)]
              | none => s
            let s := s.modTile n fun t => if full then t.setFull o else t.setEmpty o
            (s.feChanged n o full).finish q

/-- LDW (06 R138). -/
def execLdw (st : StallCode) (d a : XReg) (i : BitVec 12) (s : State) :
    Host.Outcome State Fault Refusal :=
  .next (feRead (.ldw st d a i) st d a (·.addrOf a i) .ldw false false s)

/-- LDWE (06 R138): it counts as a store of a task (15 R396). -/
def execLdwe (st : StallCode) (d a : XReg) (i : BitVec 12) (s : State) :
    Host.Outcome State Fault Refusal :=
  .next (feRead (.ldwe st d a i) st d a (·.addrOf a i) .ldwe false true s)

/-- LDF (06 R141, 15 R395). -/
def execLdf (st : StallCode) (d a : XReg) (i : BitVec 12) (s : State) :
    Host.Outcome State Fault Refusal :=
  .next (feRead (.ldf st d a i) st d a (·.addrOf a i) .ldw true false s)

/-- STW (06 R138). -/
def execStw (st : StallCode) (b a : XReg) (i : BitVec 12) (s : State) :
    Host.Outcome State Fault Refusal :=
  .next (feWriteOp (.stw st b a i) st a [.x b] (·.addrOf a i) (fun s => some (s.readX b))
    (fun _ => true) true s)

/-- STF (06 R138). -/
def execStf (st : StallCode) (b a : XReg) (i : BitVec 12) (s : State) :
    Host.Outcome State Fault Refusal :=
  .next (feWriteOp (.stf st b a i) st a [.x b] (·.addrOf a i) (fun s => some (s.readX b))
    (fun _ => true) false s)

/-- FEGET (06 R151). -/
def execFeget (st : StallCode) (d a : XReg) (s : State) : Host.Outcome State Fault Refusal :=
  .next (feRead (.feget st d a) st d a (·.readX a) .feget false false s)

/-- FESET (06 R151). -/
def execFeset (st : StallCode) (a b : XReg) (s : State) : Host.Outcome State Fault Refusal :=
  .next (feWriteOp (.feset st a b) st a [.x b] (·.readX a) (fun _ => none)
    (fun s => bitAt (s.readX b) 0) false s)

/-- An interrupt is taken in place of an F/E instruction that waits: the request is withdrawn
(06 R140). -/
def State.withdrawFe (s : State) : State :=
  match s.myWait with
  | some (n, _) => s.dropWait n s.cur
  | none => s

/-- The request has been served: the instruction completes before an interrupt (06 R140). -/
def State.feServed (s : State) : Bool :=
  match s.myWait with
  | some (_, w) => w.served.isSome
  | none => false

/-! ### Cache maintenance (06 R150) -/

/-- The tile's line that holds a checked address. -/
def State.copyLine (s : State) (pa : Nat) : Nat := lineOf (s.redirect s.cur (s.keyOf pa))

/-- CPREF (06 R150): a fill, dropped where it would fault. -/
def execCpref (st : StallCode) (a : XReg) (s : State) : Host.Outcome State Fault Refusal :=
  let q : Issue := { word := encode (.cpref st a), stall := st, reads := [.x a] }
  .next (s.issue q fun s =>
    match s.check { kind := .load, align := 0, maint := true } (s.readX a) with
    | .error _ => s.finish q
    | .ok x =>
      let la := localAddr x.pa
      if s.isLocal x.pa && cacheable la && !x.mt && (s.pinAt la).isNone &&
          !s.homeBusy x.pa false then
        let s := if s.tile.owns la then s else s.recall (lineOf la)
        let one (s : State) (a : Nat) : State :=
          if (s.tile.copyAt a).isSome then s
          else
            let s := s.detect (sectorOf a)
            if s.lost (sectorOf a) then s else s.fill s.cur a
        (one (one s (lineOf la)) (lineOf la + 64)).finish q
      else s.finish q)

/-- CCLEAN, CFLUSH and CINV: the checks, the wait for earlier accesses of the unit to the line, and
what becomes of the tile's copy. -/
def maintain (i : Instr) (st : StallCode) (a : XReg) (k : AccKind) (f : State → CacheLine → State)
    (s : State) : State :=
  let q : Issue := { word := encode i, stall := st, reads := [.x a] }
  s.issue q fun s =>
    match s.check { kind := k, align := 0, maint := true } (s.readX a) with
    | .error e => s.raise e
    | .ok x =>
      let line := s.copyLine x.pa
      if s.tile.reqs.any fun r => r.by s.who && !r.performed && r.touches line then s.stay 0
      else match s.tile.line line with
        | none => s.finish q
        | some l => (f s l).finish q

/-- CCLEAN (06 R150). -/
def execCclean (st : StallCode) (a : XReg) (s : State) : Host.Outcome State Fault Refusal :=
  .next (maintain (.cclean st a) st a .load (fun s l =>
    (s.onTile (·.setLine { l with dirty0 := false, dirty1 := false })).writeBackLine l) s)

/-- CFLUSH (06 R150). -/
def execCflush (st : StallCode) (a : XReg) (s : State) : Host.Outcome State Fault Refusal :=
  .next (maintain (.cflush st a) st a .load (fun s l => s.evictLine s.cur l.addr) s)

/-- CINV (06 R150). -/
def execCinv (st : StallCode) (a : XReg) (s : State) : Host.Outcome State Fault Refusal :=
  .next (maintain (.cinv st a) st a .store (fun s l => s.onTile (·.dropLine l.addr)) s)

end Sys2Proof.Machine
end

