-- ==== Sys2Proof/Machine/Order.lean ====
section
/-! DEFINITION. Fences (07 R175–R179) and the steps of requests on their way to and from their
homes (07 R160, R161, R166, 06 R116–R118). -/
namespace Sys2Proof.Machine

/-! ### Fences -/

/-- The accesses that a unit has issued below a number are performed (07 R172). -/
def Tile.quietBelow (t : Tile) (u : UnitId) (n : Nat) : Bool :=
  t.reqs.all fun r => !r.by u || r.performed || decide (n ≤ r.id)

/-- The number of the next request when the FENCE under way was first executed (07 R172). -/
def State.fenceMark (s : State) : Nat :=
  match s.core.begun with
  | some (.fence n) => n
  | some (.save _) | some .load | some .wfi | some (.reads _) | none => s.fresh

/-- FENCE (07 R176): `q` ACQ, `r` REL, `c` SCOPE, `u` SQ. With SQ it waits for the accesses of the
sequencers that are older than its own issue. -/
def execFence (st : StallCode) (q r : BitVec 1) (c : BitVec 3) (u : BitVec 1) (s : State) :
    Host.Outcome State Fault Refusal :=
  let i : Issue := { word := encode (.fence st q r c u), stall := st, serial := true }
  .next (s.issue i fun s =>
    if (r = 1 && !s.releasedAt c.toNat) ||
        (q = 1 && u = 1 &&
          !(s.tile.quietBelow .as s.fenceMark && s.tile.quietBelow .ss s.fenceMark)) then
      (s.setCore { s.core with begun := some (.fence s.fenceMark) }).stay 0
    else (if q = 1 ∧ c ≠ 0 then s.acquire else s).finish i)

/-- FENCEI (07 R177): the words fetched and not yet issued are discarded, once the hart's own
writes are there to be fetched. -/
def execFencei (s : State) : Host.Outcome State Fault Refusal :=
  let q : Issue := { word := s.withStall (encode .fencei), serial := true }
  .next (s.issue q fun s =>
    if s.releasedAt 0 then (s.onTile fun t => { t with fetched := [] }).finish q else s.stay 0)

/-- Every command of the hart has completed: its record is posted, its reply placed (07 R179). -/
def Tile.commandsDone (t : Tile) : Bool := t.cmds.isEmpty && t.remote.all fun r => !r.write

/-- FENCEA (07 R179). -/
def execFencea (s : State) : Host.Outcome State Fault Refusal :=
  let q : Issue := { word := s.withStall (encode .fencea), serial := true }
  .next (s.issue q fun s => if s.tile.commandsDone then s.acquire.finish q else s.stay 0)

/-! ### Steps of requests: tile `arg.tile`, request `arg.n₁` -/

/-- The request of the event, where it is of a kind. -/
def State.argReq (s : State) (k : Req → Bool) : Option Req :=
  match s.req s.arg.n₁ with
  | some q => if k q then some q else none
  | none => none

/-- The pieces that a home takes up at once: all of them, or those that bits of `w₁` and, from 64
on, of `vec` name (07 R154, R163). -/
def EventArg.pieces (a : EventArg) (i : Nat) : Bool :=
  !a.flag || (if i < 64 then bitAt a.w₁ i else bitAt a.vec (i - 64))

/-- HOME_REQUEST: a load or store is applied at its home (07 R161). -/
def execHomeRequest (s : State) : Host.Outcome State Fault Refusal :=
  .next (s.atTile s.arg.tile fun s =>
    match s.argReq fun q => q.kind == .load || q.kind == .store with
    | some q => s.serveSome q.id s.arg.pieces
    | none => s)

/-- The line of a piece is held by a tile: owned, here or on another device, or in its window. -/
def State.heldByTile (s : State) (q : Req) : Bool :=
  q.accs.any fun a => s.isLocal a.pa && ((s.ownerOf (lineOf (localAddr a.pa))).isSome ||
    (s.farOwner (localAddr a.pa)).isSome ||
    (match regionOf (localAddr a.pa) with
     | .window _ _ => true
     | .hbm | .launch _ | .regs _ | .appSram | .appRegs _ | .hostMem | .unmapped => false))

/-- FORWARDED_REQUEST: an owning tile answers a request from its own state, or, with `n₂` = 1, the
home accepts the request and passes it on to that tile (14 R363). -/
def execForwardedRequest (s : State) : Host.Outcome State Fault Refusal :=
  .next (s.atTile s.arg.tile fun s =>
    match s.argReq s.heldByTile with
    | some q =>
      if s.arg.n₂ = 1 then
        (if q.stage = .sent ∧ q.parked.isNone ∧ q.answered = false ∧
            ((s.obstacle q).isNone ∨ s.obstacle q = some .accepted) then s.acceptReq q else s)
      else s.serveSome q.id s.arg.pieces
    | none => s)

/-- AMO_AT_HOME: read, computation and write in one step (08 R190, R193). -/
def execAmoAtHome (s : State) : Host.Outcome State Fault Refusal :=
  .next (s.atTile s.arg.tile fun s =>
    match s.argReq fun q => (match q.kind with
        | .amo _ | .cas _ => true
        | .load | .store | .etch _ _ _ => false) with
    | some q => s.serve q.id
    | none => s)

/-- ETCH_CALL_EXEC: the Etch unit runs a routine on the held line (08 R207), or, with the flag, the
call reaches the unit while it runs another one and joins its queue (08 R188). -/
def execEtchCallExec (s : State) : Host.Outcome State Fault Refusal :=
  .next (s.atTile s.arg.tile fun s =>
    match s.argReq fun q => (match q.kind with
        | .etch _ _ _ => true
        | .load | .store | .amo _ | .cas _ => false) with
    | some q =>
      if s.arg.flag then
        (if q.stage = .sent && q.parked.isNone && !q.answered && !s.behind q then s.joinEtch q else s)
      else s.serve q.id
    | none => s)

/-- LOAD_RESPONSE: the value arrives and the destination is written (02 R45). -/
def execLoadResponse (s : State) : Host.Outcome State Fault Refusal :=
  .next (s.atTile s.arg.tile fun s =>
    match s.argReq fun q => q.kind == .load with
    | some q => s.respond q.id
    | none => s)

/-- WRITE_ACK: a home acknowledges a write (07 R166). -/
def execWriteAck (s : State) : Host.Outcome State Fault Refusal :=
  .next (s.atTile s.arg.tile fun s =>
    match s.argReq fun q => q.kind == .store with
    | some q => s.respond q.id
    | none => s)

/-- AMO_RESPONSE: registers, flags and the ticket of an atomic or a call (08 R195). -/
def execAmoResponse (s : State) : Host.Outcome State Fault Refusal :=
  .next (s.atTile s.arg.tile fun s =>
    match s.argReq fun q => q.kind != .load && q.kind != .store with
    | some q => s.respond q.id
    | none => s)

/-- CLUSTER_RESEND: a request refused at a full table or queue reaches its home again
(06 R139, 08 R188, R197). An F/E request is sent again by the next turn of its unit. -/
def execClusterResend (s : State) : Host.Outcome State Fault Refusal :=
  .next (s.atTile s.arg.tile fun s =>
    match s.req s.arg.n₁ with
    | some q =>
      (if q.stage = .refused then s.setReq { q with stage := .sent } else s).serve q.id
    | none => s)

/-- ROUTINE_FETCH_DONE: the image of a parked call has been fetched and verified (08 R198, R210). -/
def execRoutineFetchDone (s : State) : Host.Outcome State Fault Refusal :=
  .next (s.atTile s.arg.tile fun s =>
    match s.argReq fun q => q.parked == some .routineMiss with
    | none => s
    | some q =>
      match q.kind with
      | .etch id _ etbase =>
        (match s.fetchRoutine s.cur q id etbase with
         | (s, .wait) => s
         | (s, .unreachable va) => s.parkRoutine q id (s.routineFaulted q id) va
         | (s, .bad d) => s.setReq { q with parked := none, error := some d, answered := true }
         | (s, .ok image) => ((s.cacheImage image).setReq { q with parked := none }).serve q.id)
      | .load | .store | .amo _ | .cas _ => s)

/-! ### Walks (06 R116–R119) -/

/-- An entry put into a TLB of `n` entries; the oldest leaves a full one. -/
def putTlb (l : List TlbEntry) (e : TlbEntry) (n : Nat) : List TlbEntry :=
  let l := l.filter fun x => !(x.ctx == e.ctx && x.page == e.page && x.big == e.big)
  l.drop (l.length + 1 - n) ++ [e]

/-- A leaf put into the TLB of tile `n` and that of its cluster (06 R118). -/
def State.putLeaf (s : State) (n : Nat) (e : TlbEntry) : State :=
  let cluster := clusterOf n
  let mine := (s.clusterTlb.filter fun p => p.1 == cluster).map (·.2)
  let rest := s.clusterTlb.filter fun p => p.1 != cluster
  { s.modTile n fun t => { t with tlb := putTlb t.tlb e 48 } with
    clusterTlb := rest ++ (putTlb mine e 4096).map fun e => (cluster, e) }

/-- The walk for an address with the tables at a root: an entry for a TLB (06 R116, R117). -/
def State.walkFor (s : State) (ctx : Nat) (trbase : Word) (va : Nat) : Option TlbEntry :=
  match s.walk (rootOf trbase) va with
  | .error _ => none
  | .ok (leaf, big) => some ⟨ctx, va / (if big then 2 ^ 29 else 2 ^ 16), big, leaf⟩

/-- The walkers of a die run 32 walks, one each, and take the pending misses in their order; the
first 2,048 of them stand in the miss table and the later ones wait in the second-level TLBs
(06 R118, log 25). -/
def State.walked (s : State) (m : Miss) : Bool :=
  ((s.misses.filter fun x => x.die == m.die).take 32).contains m

/-- A walk reads the tables of a context at its homes: errors are found there (18 R448). -/
def State.walkDetect (s : State) (trbase : Word) (va : Nat) : State :=
  (s.walkReads (rootOf trbase) va).foldl (fun s la => s.detect (sectorOf la)) s

/-- The walk waits at the home of an entry (17 R432, R433, R444). -/
def State.walkWaits (s : State) (trbase : Word) (va : Nat) : Bool :=
  (s.walkReads (rootOf trbase) va).any s.readStops

/-- A pending miss ends: every tile that waits for it takes the leaf, or meets the fault at its next
attempt, which walks at once (06 R118, R119). -/
def State.endMiss (s : State) (m : Miss) : State :=
  let s := { s with misses := s.misses.filter (· != m) }
  match s.walkFor m.ctx m.root (m.page * 2 ^ 16) with
  | some e => m.tiles.foldl (fun s n => s.putLeaf n e) s
  | none => { s with choice := { s.choice with walks := false } }

/-- Level 2 of the walk of a pending miss has been read: where it maps a large page, the misses of
the page join it (06 R118). -/
def State.showLarge (s : State) (m : Miss) : State :=
  match s.walkFor m.ctx m.root (m.page * 2 ^ 16) with
  | some e =>
    if e.big then
      let here (x : Miss) : Bool :=
        x.die == m.die && x.ctx == m.ctx && x.page / 8192 == m.page / 8192
      let all := s.misses.filter here
      let joined := (all.flatMap (·.tiles)).foldl insertNat []
      { s with misses := s.misses.filterMap fun x =>
          if x = m then some { m with large := true, tiles := joined }
          else if here x then none else some x }
    else s
  | none => s

/-- PAGE_WALK: for address `w₁` of a tile a walker ends the walk of a pending miss, or, with the
flag, reads level 2 of it, so that misses of a large page join it; with no miss pending the leaf is
put into the TLBs. No TLB holds a fault (06 R117–R119). -/
def execPageWalk (s : State) : Host.Outcome State Fault Refusal :=
  .next (s.atTile s.arg.tile fun s =>
    let va := s.arg.w₁.toNat
    let tr := s.tile.cr.trbase
    match s.misses.find? fun m => m.covers (dieOf s.cur) s.tile.ctx (va / 2 ^ 16) with
    | some m =>
      if !s.walked m || s.walkWaits m.root (m.page * 2 ^ 16) then s
      else
        let s := s.walkDetect m.root (m.page * 2 ^ 16)
        if s.arg.flag then s.showLarge m else s.endMiss m
    | none =>
      if !bitAt tr 0 || decide (va / 2 ^ 48 ≠ 0) || s.walkWaits tr va then s
      else
        let s := s.walkDetect tr va
        match s.walkFor s.tile.ctx tr va with
        | none => s
        | some e => s.putLeaf s.cur e)

end Sys2Proof.Machine
end

