-- ==== Sys2Proof/Machine/Atomic.lean ====
section
/-! DEFINITION. Atomics, Etch calls and the management of routines (08 R189–R195, R211–R214). -/
namespace Sys2Proof.Machine

/-! ### AMO and AMOCAS -/

/-- SYNCSCOPE.SCOPE (07 R171). -/
def Tile.syncScope (t : Tile) : Nat := (slice t.cr.syncscope 0 3).toNat

/-- A ticket, a release that is due, or an acquire under way holds up an atomic (07 R166, R169,
08 R195). -/
def State.atomicWaits (s : State) (rel : Bool) : Bool :=
  decide (16 ≤ s.tile.ticketsOut) || s.acquiring || (rel && !s.releasedAt s.tile.syncScope)

/-- AMO and AMOCAS on `z` bytes with ordering `o` (08 R190, R193). -/
def atomicOp (i : Instr) (st : StallCode) (d a b : XReg) (z : Nat) (o : BitVec 2)
    (rs : List RegRef) (kind : State → ReqKind) (s : State) : State :=
  let q : Issue := { word := encode i, stall := st, reads := .x a :: .x b :: rs, writes := [.x d],
                     side := true }
  s.issue q fun s =>
    if s.atomicWaits (bitAt o 1) then s.stay 0
    else
      let va := s.readX a
      match s.check { kind := .atomic, align := z } va with
      | .error e => s.raise e
      | .ok x =>
        let data := (s.readX b).toNat % 256 ^ z
        let r := { s.newReq (kind s) [x.acc z 0 data] (s.destX d 8 true) va with
          acquire := if bitAt o 0 then some s.tile.syncScope else none }
        ((s.dropCopy (s.copyLine x.pa)).request r).finish q

/-- The width of an atomic in bytes (08 R189). -/
def amoSize (w : BitVec 1) : Nat := if w = 0 then 4 else 8

/-- AMOADD (08 R191). -/
def execAmoadd (st : StallCode) (d a b : XReg) (w : BitVec 1) (o : BitVec 2) (s : State) :
    Host.Outcome State Fault Refusal :=
  .next (atomicOp (.amoadd st d a b w o) st d a b (amoSize w) o [] (fun _ => .amo 0) s)

/-- AMOAND (08 R191). -/
def execAmoand (st : StallCode) (d a b : XReg) (w : BitVec 1) (o : BitVec 2) (s : State) :
    Host.Outcome State Fault Refusal :=
  .next (atomicOp (.amoand st d a b w o) st d a b (amoSize w) o [] (fun _ => .amo 1) s)

/-- AMOOR (08 R191). -/
def execAmoor (st : StallCode) (d a b : XReg) (w : BitVec 1) (o : BitVec 2) (s : State) :
    Host.Outcome State Fault Refusal :=
  .next (atomicOp (.amoor st d a b w o) st d a b (amoSize w) o [] (fun _ => .amo 2) s)

/-- AMOXOR (08 R191). -/
def execAmoxor (st : StallCode) (d a b : XReg) (w : BitVec 1) (o : BitVec 2) (s : State) :
    Host.Outcome State Fault Refusal :=
  .next (atomicOp (.amoxor st d a b w o) st d a b (amoSize w) o [] (fun _ => .amo 3) s)

/-- AMOMIN (08 R191). -/
def execAmomin (st : StallCode) (d a b : XReg) (w : BitVec 1) (o : BitVec 2) (s : State) :
    Host.Outcome State Fault Refusal :=
  .next (atomicOp (.amomin st d a b w o) st d a b (amoSize w) o [] (fun _ => .amo 4) s)

/-- AMOMAX (08 R191). -/
def execAmomax (st : StallCode) (d a b : XReg) (w : BitVec 1) (o : BitVec 2) (s : State) :
    Host.Outcome State Fault Refusal :=
  .next (atomicOp (.amomax st d a b w o) st d a b (amoSize w) o [] (fun _ => .amo 5) s)

/-- AMOMINU (08 R191). -/
def execAmominu (st : StallCode) (d a b : XReg) (w : BitVec 1) (o : BitVec 2) (s : State) :
    Host.Outcome State Fault Refusal :=
  .next (atomicOp (.amominu st d a b w o) st d a b (amoSize w) o [] (fun _ => .amo 6) s)

/-- AMOMAXU (08 R191). -/
def execAmomaxu (st : StallCode) (d a b : XReg) (w : BitVec 1) (o : BitVec 2) (s : State) :
    Host.Outcome State Fault Refusal :=
  .next (atomicOp (.amomaxu st d a b w o) st d a b (amoSize w) o [] (fun _ => .amo 7) s)

/-- AMOSWAP (08 R191). -/
def execAmoswap (st : StallCode) (d a b : XReg) (w : BitVec 1) (o : BitVec 2) (s : State) :
    Host.Outcome State Fault Refusal :=
  .next (atomicOp (.amoswap st d a b w o) st d a b (amoSize w) o [] (fun _ => .amo 8) s)

/-- AMOFADD (08 R191, R192). -/
def execAmofadd (st : StallCode) (d a b : XReg) (o : BitVec 2) (s : State) :
    Host.Outcome State Fault Refusal :=
  .next (atomicOp (.amofadd st d a b o) st d a b 4 o [] (fun _ => .amo 9) s)

/-- AMOFMAX (08 R191, R192). -/
def execAmofmax (st : StallCode) (d a b : XReg) (o : BitVec 2) (s : State) :
    Host.Outcome State Fault Refusal :=
  .next (atomicOp (.amofmax st d a b o) st d a b 4 o [] (fun _ => .amo 10) s)

/-- AMOINCS (08 R191). -/
def execAmoincs (st : StallCode) (d a b : XReg) (w : BitVec 1) (o : BitVec 2) (s : State) :
    Host.Outcome State Fault Refusal :=
  .next (atomicOp (.amoincs st d a b w o) st d a b (amoSize w) o [] (fun _ => .amo 11) s)

/-- AMOCAS: rd supplies the expected value (08 R193). -/
def execAmocas (st : StallCode) (d a b : XReg) (w : BitVec 1) (o : BitVec 2) (s : State) :
    Host.Outcome State Fault Refusal :=
  .next (atomicOp (.amocas st d a b w o) st d a b (amoSize w) o [.x d]
    (fun s => .cas ((s.readX d).toNat % 256 ^ amoSize w)) s)

/-! ### ETCALL (08 R214) -/

/-- The line is HBM or a tile window of this device. -/
def State.etchTarget (s : State) (pa : Nat) : Bool :=
  s.isLocal pa && (match regionOf (localAddr pa) with
    | .hbm | .window _ _ => true
    | .launch _ | .regs _ | .appSram | .appRegs _ | .hostMem | .unmapped => false)

/-- Four registers from `b` on. -/
def block4 (b : XReg) : List XReg := [b, b + 1, b + 2, b + 3]

/-- ETCALL (08 R214). -/
def execEtcall (st : StallCode) (d a b : XReg) (o : BitVec 1) (i : BitVec 6) (s : State) :
    Host.Outcome State Fault Refusal :=
  let q : Issue := { word := encode (.etcall st d a b o i), stall := st, side := true,
                     reads := .x a :: (block4 b).map .x,
                     writes := if d = 0 then [] else [.x d, .x (d + 1)] }
  .next (s.issue q fun s =>
    if s.atomicWaits (o == 1) then s.stay 0
    else
      let va := s.readX a
      if va.toNat % 128 ≠ 0 then s.raise ⟨.misalign, va, some (mfinfoOf 0 0 3 0)⟩
      else if !bitAt s.tile.cr.etbase 0 then s.raise ⟨.etfault, etTval false 9 0 0, none⟩
      else match s.check { kind := .atomic, align := 0 } va with
        | .error e => s.raise e
        | .ok x =>
          if !s.etchTarget x.pa then s.raise ⟨.etfault, etTval false 8 va 0, none⟩
          else
            let ops := (block4 b).map s.readX
            let dest := if d = 0 then .none else .x2 (s.xIndex d.toNat) (s.xIndex (d.toNat + 1))
            let r := { s.newReq (.etch i.toNat ops s.tile.cr.etbase) (x.words 128 0 0) dest va with
              acquire := if o = 1 then some s.tile.syncScope else none }
            ((s.dropCopy (s.copyLine x.pa)).request r).finish q)

/-! ### Routine management (08 R211, R212) -/

/-- The address of entry `id` of the routine table (08 R202, R203). -/
def Tile.etEntry (t : Tile) (id : Nat) : Word :=
  BitVec.ofNat 64 ((slice t.cr.etbase 10 38).toNat * 1024 + 16 * id)

/-- Calls parked by a routine fetch fault replay: those of the context to one routine, or to every
one (08 R211). -/
def State.replayCalls (s : State) (ctx : Nat) (id : Option Nat) : State :=
  let hit (q : Req) : Bool := q.parked == some .routineFault && q.ctx == ctx && (match q.kind with
    | .etch k _ _ => id == none || id == some k
    | .load | .store | .amo _ | .cas _ => false)
  let all := s.tiles.flatMap fun p => (p.2.reqs.filter hit).map fun q => (q.arrival, p.1, q.id)
  let todo := (sortBy (fun a b => decide (a.1 ≤ b.1)) all).map (·.2)
  let s := s.mapTiles fun _ t => { t with
    reqs := t.reqs.map fun q => if hit q then { q with parked := none } else q }
  if s.choice.defer then s
  else todo.foldl (fun s p => s.atTile p.1 fun s => (s.serve p.2).respond p.2) s

/-- The change of a routine reaches every slice (08 R211). -/
def State.broadcastRoutine (s : State) (id : Option Nat) : State :=
  let ctx := s.tile.ctx
  { s with images := s.images.filter fun m => !(m.ctx == ctx && (id == none || id == some m.id)) }
    |>.replayCalls ctx id

/-- The words of routine management that the hart reads at issue: those of the image or of the entry
at a checked address, or where it stops (08 R211). -/
inductive IssueRead where
  | words (l : List Word)
  | lost
  | waits
  deriving DecidableEq, Repr

/-- `n` words from a checked address, read at issue as a load of the hart: they wait for its earlier
accesses, for what holds the line up at its home, and for the compact that has pinned it (07 R160,
08 R198, 13 R335). -/
def State.readAt (s : State) (x : Xlat) (va : Word) (n : Nat) : State × IssueRead :=
  let f : Form := { kind := .load, align := 0 }
  let step (p : State × IssueRead) (k : Nat) : State × IssueRead :=
    let (s, r) := p
    match s.readOne f va { x with pa := x.pa + 8 * k } with
    | (s, none) => (s, .waits)
    | (s, some (.error _)) => (s, match r with
      | .waits => .waits
      | .words _ | .lost => .lost)
    | (s, some (.ok v)) => (s, match r with
      | .words l => .words (l ++ [BitVec.ofNat 64 v])
      | .lost => .lost
      | .waits => .waits)
  if s.wordsBusy ((List.range n).map fun k => x.pa + 8 * k) false true then (s, .waits)
  else (List.range n).foldl step (s, .words [])

/-- A store by the hart that completes in this step. -/
def State.storeNow (s : State) (x : Xlat) (n : Nat) (v : Word) : State :=
  let s' := (s.performAccs (s.newReq .store (x.words n 0 v.toNat) .none 0) fun _ => true).1
  if s.isLocal x.pa then s'.mailboxTriggers [(localAddr x.pa, n)] else s'

/-- A store by the hart at issue has to wait (State.wordsBusy, State.homeBusy). -/
def State.storeStops (s : State) (pas : List Nat) : Bool :=
  s.wordsBusy pas true true || pas.any fun pa => s.homeBusy pa true

/-- The DATAERR of an ETINST or ETDROP whose read meets lost data, at its hart's next boundary. -/
def State.manageLost (s : State) (va : Word) : State :=
  s.deliverError ⟨Cause.dataerr.code, va, some (mfinfoOf 0 0 0 reasonUE)⟩

/-- ETINST (08 R211, R212). No rule says what becomes of an ETINST whose image line or whose entry
holds an uncorrectable error: the model writes no entry, leaves rd as it was, and the hart takes
DATAERR at its next boundary (DESIGN CHOICE, log 33). It waits at issue for earlier accesses of the
hart to the words that it reads and writes, and for earlier reads (07 R156, R160), but for no
release, and not for a parked call that it replays. -/
def execEtinst (st : StallCode) (d a b : XReg) (s : State) : Host.Outcome State Fault Refusal :=
  let q : Issue := { word := encode (.etinst st d a b), stall := st, reads := [.x a, .x b],
                     writes := [.x d], side := true }
  .next (s.issue q fun s =>
    let va := s.readX a
    let c := s.readX b
    let id := (slice c 0 6).toNat
    let len := (slice c 8 6).toNat
    let entry := s.tile.etEntry id
    if s.acquiringFirst then s.stay 0
    else if !bitAt s.tile.cr.etbase 0 then s.raise ⟨.etfault, etTval false 9 0 0, none⟩
    else match s.check { kind := .load, align := 128 } va with
      | .error e => s.raise e
      | .ok x =>
        match s.readAt x va 16 with
        | (s, .waits) => s.stay 0
        | (s, .lost) => (s.manageLost va).finish q
        | (s, .words ls) =>
          let words := (List.range 32).map fun k => slice (ls.getD (k / 2) 0) (32 * (k % 2)) 32
          match etchCheck words len with
          | some (code, k) => s.raise ⟨.etfault, etTval false code va k, none⟩
          | none =>
            match s.check { kind := .store, align := 8 } entry with
            | .error e => s.raise e
            | .ok y =>
              if s.storeStops [y.pa, y.pa + 8] then s.stay 0
              else match s.readAt { y with pa := y.pa + 8 } (entry + 8) 1 with
              | (s, .waits) => s.stay 0
              | (s, .lost) => (s.manageLost (entry + 8)).finish q
              | (s, .words old) =>
                let version : BitVec 16 := slice (old.getD 0 0) 32 16 + 1
                let w0 : Word := setSlice 0#64 7 41 (slice va 7 41)
                let w1 : Word := 1#1 ++ 0#15 ++ version ++ 0#26 ++ BitVec.ofNat 6 len
                let s := (s.storeNow y 8 w0).storeNow { y with pa := y.pa + 8 } 8 w1
                ((s.broadcastRoutine (some id)).commitX d (version.setWidth 64)).finish q)

/-- ETDROP (08 R211, R212). -/
def execEtdrop (st : StallCode) (b : XReg) (s : State) : Host.Outcome State Fault Refusal :=
  let q : Issue := { word := encode (.etdrop st b), stall := st, reads := [.x b], side := true }
  .next (s.issue q fun s =>
    let id := (slice (s.readX b) 0 6).toNat
    let entry := s.tile.etEntry id
    if s.acquiringFirst then s.stay 0
    else if !bitAt s.tile.cr.etbase 0 then s.raise ⟨.etfault, etTval false 9 0 0, none⟩
    else match s.check { kind := .store, align := 8 } entry with
      | .error e => s.raise e
      | .ok y =>
        let z : Xlat := { y with pa := y.pa + 8 }
        if s.storeStops [z.pa] then s.stay 0
        else match s.readAt z (entry + 8) 1 with
        | (s, .waits) => s.stay 0
        | (s, .lost) => (s.manageLost (entry + 8)).finish q
        | (s, .words old) =>
          let s := s.storeNow z 8 (setSlice (old.getD 0 0) 63 1 0#1)
          (s.broadcastRoutine (some id)).finish q)

/-- ETFLUSH (08 R211, R212). -/
def execEtflush (st : StallCode) (s : State) : Host.Outcome State Fault Refusal :=
  let q : Issue := { word := encode (.etflush st), stall := st }
  .next (s.issue q fun s => (s.broadcastRoutine none).finish q)

/-- ETQUERY: a load of word 1 of an entry (08 R211, R212). -/
def execEtquery (st : StallCode) (d b : XReg) (s : State) : Host.Outcome State Fault Refusal :=
  let q : Issue := { word := encode (.etquery st d b), stall := st, reads := [.x b],
                     writes := [.x d] }
  .next (s.issue q fun s =>
    let va := s.tile.etEntry (slice (s.readX b) 0 6).toNat + 8
    if s.loadWaits then s.stay 0
    else if !bitAt s.tile.cr.etbase 0 then s.raise ⟨.etfault, etTval false 9 0 0, none⟩
    else match s.check { kind := .load, align := 8 } va with
      | .error e => s.raise e
      | .ok x => (s.request (s.newReq .load [x.acc 8 0 0] (s.destX d 8 false) va)).finish q)

end Sys2Proof.Machine
end

