-- ==== Sys2Proof/Machine/Control.lean ====
section
/-! DEFINITION. Branches, jumps, FRAME and the branch-outcome queues (04), and the return from a
trap, which resumes a replay (04 R80, 16 R406). -/
namespace Sys2Proof.Machine

/-! ### Branches and jumps (04 R69, R70, R83) -/

/-- The target of a B-format branch (02 R34). -/
def branchTarget (pc : Word) (o : BitVec 12) : Word := pc + (o.signExtend 64) * 4

/-- The target of a J-format jump (02 R34). -/
def jumpTarget (pc : Word) (o : BitVec 17) : Word := pc + (o.signExtend 64) * 4

/-- A conditional branch on two registers (04 R69). -/
def branchOn (i : Instr) (st : StallCode) (a b : XReg) (o : BitVec 12) (c : Word → Word → Bool)
    (s : State) : State :=
  let q : Issue := { word := encode i, stall := st, units := .all, reads := [.x a, .x b] }
  s.issue q fun s =>
    s.finishAt q (if c (s.readX a) (s.readX b) then branchTarget s.pc o else s.pc + 4)

/-- BEQ (04 R69). -/
def execBeq (st : StallCode) (a b : XReg) (o : BitVec 12) (s : State) :
    Host.Outcome State Fault Refusal :=
  .next (branchOn (.beq st a b o) st a b o (fun a b => a == b) s)

/-- BNE (04 R69). -/
def execBne (st : StallCode) (a b : XReg) (o : BitVec 12) (s : State) :
    Host.Outcome State Fault Refusal :=
  .next (branchOn (.bne st a b o) st a b o (fun a b => a != b) s)

/-- BLT (04 R69). -/
def execBlt (st : StallCode) (a b : XReg) (o : BitVec 12) (s : State) :
    Host.Outcome State Fault Refusal :=
  .next (branchOn (.blt st a b o) st a b o (fun a b => decide (a.toInt < b.toInt)) s)

/-- BGE (04 R69). -/
def execBge (st : StallCode) (a b : XReg) (o : BitVec 12) (s : State) :
    Host.Outcome State Fault Refusal :=
  .next (branchOn (.bge st a b o) st a b o (fun a b => decide (b.toInt ≤ a.toInt)) s)

/-- BLTU (04 R69). -/
def execBltu (st : StallCode) (a b : XReg) (o : BitVec 12) (s : State) :
    Host.Outcome State Fault Refusal :=
  .next (branchOn (.bltu st a b o) st a b o (fun a b => decide (a.toNat < b.toNat)) s)

/-- BGEU (04 R69). -/
def execBgeu (st : StallCode) (a b : XReg) (o : BitVec 12) (s : State) :
    Host.Outcome State Fault Refusal :=
  .next (branchOn (.bgeu st a b o) st a b o (fun a b => decide (b.toNat ≤ a.toNat)) s)

/-- JAL (04 R70). -/
def execJal (st : StallCode) (d : XReg) (o : BitVec 17) (s : State) :
    Host.Outcome State Fault Refusal :=
  let q : Issue := { word := encode (.jal st d o), stall := st, units := .all, writes := [.x d] }
  .next (s.issue q fun s =>
    (s.writeX d (s.pc + 4) 1 st).finishAt q (jumpTarget s.pc o))

/-- JALR (04 R70): the target is computed before the link is written. -/
def execJalr (st : StallCode) (d a : XReg) (i : BitVec 12) (s : State) :
    Host.Outcome State Fault Refusal :=
  let q : Issue := { word := encode (.jalr st d a i), stall := st, units := .all, reads := [.x a],
                     writes := [.x d] }
  .next (s.issue q fun s =>
    let t := s.readX a + i.signExtend 64
    if slice t 0 2 ≠ 0 then s.raise ⟨.misalign, t, none⟩
    else (s.writeX d (s.pc + 4) 1 st).finishAt q t)

/-! ### Branch-outcome queues (04 R81–R84) -/

/-- The incoming queue of the unit that executes (04 R81). -/
def State.boq (s : State) : List Bool :=
  match s.who with
  | .eh | .vs => s.tile.boqE
  | .as => s.tile.boqA
  | .ss => s.tile.boqS

def State.setBoq (s : State) (q : List Bool) : State :=
  match s.who with
  | .eh | .vs => s.onTile fun t => { t with boqE := q }
  | .as => s.onTile fun t => { t with boqA := q }
  | .ss => s.onTile fun t => { t with boqS := q }

/-- BQT and BQF: the pop and the branch are one step; an empty queue makes the unit wait in state 1
(04 R83, R86). -/
def branchQueue (i : Instr) (st : StallCode) (o : BitVec 17) (want : Bool) (s : State) : State :=
  let q : Issue := { word := encode i, stall := st, units := .all }
  s.issue q fun s =>
    match s.boq with
    | [] => s.stay 1
    | b :: rest =>
      (s.setBoq rest).finishAt q (if b == want then jumpTarget s.pc o else s.pc + 4)

/-- BQT (04 R83). -/
def execBqt (st : StallCode) (o : BitVec 17) (s : State) : Host.Outcome State Fault Refusal :=
  .next (branchQueue (.bqt st o) st o true s)

/-- BQF (04 R83). -/
def execBqf (st : StallCode) (o : BitVec 17) (s : State) : Host.Outcome State Fault Refusal :=
  .next (branchQueue (.bqf st o) st o false s)

/-- BQPUSH: to BOQA or BOQS from the execute hart, to BOQE from the access sequencer, where F[0]
is reserved; a full queue makes the unit wait in state 2 (04 R82, R86). -/
def execBqpush (st : StallCode) (a : XReg) (t : BitVec 1) (s : State) :
    Host.Outcome State Fault Refusal :=
  let q : Issue := { word := encode (.bqpush st a t), stall := st, units := .ehAs, reads := [.x a],
                     side := true, illegal := fun s => s.who == .as && t != 0 }
  .next (s.issue q fun s =>
    let b := s.readX a != 0
    let queue := if s.who = .as then s.tile.boqE else if t = 0 then s.tile.boqA else s.tile.boqS
    if 16 ≤ queue.length then s.stay 2
    else
      (s.onTile fun tl =>
        if s.who = .as then { tl with boqE := queue ++ [b] }
        else if t = 0 then { tl with boqA := queue ++ [b] }
        else { tl with boqS := queue ++ [b] }).finish q)

/-! ### FRAME (04 R74–R80) -/

/-- A register field of a replayed word: the stride is added modulo 32 (04 R76). -/
def strided (w : Word32) (lo k : Nat) : Word32 :=
  setSlice w lo 5 (slice w lo 5 + BitVec.ofNat 5 k)

/-- The word of a window as it is replayed in iteration `i` (04 R76). -/
def frameWord (frame w : Word32) (i : Nat) : Word32 :=
  let k := i * (slice frame 7 3).toNat
  let w := if bitAt frame 6 then strided w 17 k else w
  let w := if bitAt frame 5 then strided w 12 k else w
  if bitAt frame 4 then strided w 7 k else w

/-- The classes that a window may hold, none of which uses an x register (04 R75). -/
def frameClass (w : Word32) : Bool :=
  let m := (slice w 22 7).toNat
  (decide (0x40 ≤ m ∧ m ≤ 0x69) && !(decide (0x5A ≤ m ∧ m ≤ 0x5D)) && m != 0x64) ||
    (m == 0x6A && decide ((slice w 0 7).toNat ≤ 3)) || decide (0x6B ≤ m ∧ m ≤ 0x6E) ||
    decide (0x72 ≤ m ∧ m ≤ 0x76)

/-- A bound stream register that an entry forbids (02 R40, 10 R249, R253). -/
def Tile.boundForbidden (t : Tile) : Instr → Bool
  | .mmag _ _ _ _ v => t.bound v.toNat || t.bound (v.toNat + 1)
  | .mpsum _ d _ _ _ => (List.range 4).any fun j => t.bound (d.toNat + j)
  | _ => false

/-- The word can be replayed in every iteration (04 R75). -/
def Tile.frameOk (t : Tile) (frame w : Word32) : Bool :=
  frameClass w && (List.range ((slice frame 10 8).toNat + 1)).all fun i =>
    match decodeWord (frameWord frame w i) with
    | .ok j => !t.boundForbidden j
    | .error _ => false

/-- A fetch reads its sector, and an error there is found (16 R426). -/
def State.detectFetch (s : State) (va : Word) : State :=
  match s.check { kind := .fetch, align := 0 } va with
  | .error _ => s
  | .ok x =>
    if s.isLocal x.pa && !s.homeBusy x.pa false && !(s.tile.fetched.any fun p => p.1 == x.pa) then
      let la := s.redirect s.cur (localAddr x.pa)
      let s := s.detectRead la
      match s.lostRead la with
      | some sec => s.reportLost s.tile.ctx (64 * sec)
      | none => s
    else s

/-- The fetches of the words of a window read their sectors. -/
def State.detectWindow (s : State) (a : Word) (n : Nat) : State :=
  (List.range n).foldl (fun s k => s.detectFetch (a + BitVec.ofNat 64 (4 * k))) s

/-- The words of a window, fetched (04 R75). -/
def State.fetchWindow (s : State) (a : Word) : Nat → Except Trap (List Word32)
  | 0 => .ok []
  | n + 1 =>
    match s.fetchWord a with
    | .error e => .error { e with tval := a }
    | .ok w => match s.fetchWindow (a + 4) n with
      | .error e => .error e
      | .ok ws => .ok (w :: ws)

/-- The first word of a window that may not be captured (04 R75). -/
def Tile.frameBad (t : Tile) (frame : Word32) : List Word32 → Nat → Option (Word32 × Nat)
  | [], _ => none
  | w :: rest, k => if t.frameOk frame w then t.frameBad frame rest (k + 1) else some (w, k)

/-- The window of a FRAME at an address, fetched and checked (04 R75). No rule orders a word that
may not be captured against a later word whose fetch faults: the model fetches the whole window
first, so that FETCHFAULT wins (DESIGN CHOICE, log 56). -/
def State.captureWindow (s : State) (a : Word) (frame : Word32) : Except Trap (List Word32) :=
  match s.fetchWindow (a + 4) ((slice frame 18 4).toNat + 1) with
  | .error e => .error e
  | .ok ws =>
    match s.tile.frameBad frame ws 0 with
    | some (w, k) => .error ⟨.frameerr, 0#28 ++ BitVec.ofNat 4 k ++ w, none⟩
    | none => .ok ws

/-- FRAME: the window is captured and the vector sequencer replays it (04 R75–R77). -/
def execFrame (st : StallCode) (n : BitVec 4) (c : BitVec 8) (t : BitVec 3) (x y z : BitVec 1)
    (s : State) : Host.Outcome State Fault Refusal :=
  let w := encode (.frame st n c t x y z)
  let q : Issue := { word := w, stall := st, vector := true }
  .next (s.issue q fun s =>
    if s.tile.reqs.any (fun r => r.unit == .eh && (match r.dest with
        | .v _ _ | .t _ | .queue _ _ => true
        | .none | .x _ _ _ | .x2 _ _ => false)) then s.stay 0
    else
      let s := s.detectWindow (s.pc + 4) (n.toNat + 1)
      match s.captureWindow s.pc w with
      | .error e => s.raise e
      | .ok ws =>
        let k := n.toNat + 1
        let p := s.pos + k + 1
        (s.onTile fun tl => { tl with frame := some ⟨s.pc, w, ws, 0, 0, p, s.fresh⟩ }).goTo
          (s.pc + 4 + BitVec.ofNat 64 (4 * k)) (k + stallWait st))

/-- A return checks FRAMEPOS (04 R80): it resumes a replay that was cut short, or takes the trap of
a failed check at the return target. The level, INH and pc have changed. Software may have written a
POS that is not below the number of words or an ITER above CNT, for which no rule names an effect:
the model clears ACTIVE and replays nothing (DESIGN CHOICE, log 56). The fetches walk at once. -/
def State.resumeFrame (s : State) : State :=
  let fp := s.tile.cr.framepos
  if !bitAt fp 63 then s
  else
    let a : Word := 0#16 ++ slice fp 2 46 ++ 0#2
    let walks := s.choice.walks
    let s := { s with choice := { s.choice with walks := false } }.detectFetch a
    let n := match s.fetchWord a with
      | .error _ => 0
      | .ok w => (match decodeWord w with
        | .ok (.frame _ n _ _ _ _ _) => n.toNat + 1
        | .ok _ | .error _ => 0)
    let s := s.detectWindow (a + 4) n
    let r : Except Trap (Word32 × List Word32) :=
      match s.fetchWord a with
      | .error e => .error e
      | .ok w =>
        match decodeWord w with
        | .ok (.frame _ _ _ _ _ _ _) =>
          (match s.captureWindow a w with
           | .error e => .error e
           | .ok ws => .ok (w, ws))
        | .ok _ | .error _ => .error ⟨.frameerr, 0#27 ++ 1#1 ++ 0#4 ++ w, none⟩
    let s := { s with choice := { s.choice with walks := walks } }
    match r with
    | .error e => s.raise e
    | .ok (w, ws) =>
      let i := (slice fp 52 8).toNat
      let k := (slice fp 48 4).toNat
      s.onTile fun t => { t with
        cr := { t.cr with framepos := setSlice fp 63 1 0#1 }
        frame := if k < ws.length ∧ i ≤ (slice w 10 8).toNat then
            some ⟨a, w, ws, i, k, t.eh.pos, s.fresh⟩ else none }

end Sys2Proof.Machine
end

