-- ==== Sys2Proof/Machine/Int.lean ====
section
/-! DEFINITION. Integer and address arithmetic (03). Each operation is a function of register
images; the shared forms read the sources and write the destination. -/
namespace Sys2Proof.Machine

/-! ### The operations (R62, R63) -/

/-- The shift amount of a shift by a register (R62). -/
def shiftAmount (b : Word) : Nat := (slice b 0 6).toNat

def opAdd (a b : Word) : Word := a + b
def opSub (a b : Word) : Word := a - b
def opAnd (a b : Word) : Word := a &&& b
def opOr (a b : Word) : Word := a ||| b
def opXor (a b : Word) : Word := a ^^^ b
def opAndn (a b : Word) : Word := a &&& ~~~b
def opOrn (a b : Word) : Word := a ||| ~~~b
def opSll (a b : Word) : Word := a <<< shiftAmount b
def opSrl (a b : Word) : Word := a >>> shiftAmount b
def opSra (a b : Word) : Word := a.sshiftRight (shiftAmount b)
def opRol (a b : Word) : Word := a.rotateLeft (shiftAmount b)
def opRor (a b : Word) : Word := a.rotateRight (shiftAmount b)
def opSlt (a b : Word) : Word := if a.toInt < b.toInt then 1 else 0
def opSltu (a b : Word) : Word := if a.toNat < b.toNat then 1 else 0
def opMin (a b : Word) : Word := if b.toInt < a.toInt then b else a
def opMax (a b : Word) : Word := if a.toInt < b.toInt then b else a
def opMinu (a b : Word) : Word := if b.toNat < a.toNat then b else a
def opMaxu (a b : Word) : Word := if a.toNat < b.toNat then b else a
def opMul (a b : Word) : Word := BitVec.ofInt 64 (a.toInt * b.toInt)
def opMulh (a b : Word) : Word := BitVec.ofInt 64 (a.toInt * b.toInt / 2 ^ 64)
def opMulhu (a b : Word) : Word := BitVec.ofNat 64 (a.toNat * b.toNat / 2 ^ 64)
def opMulhsu (a b : Word) : Word := BitVec.ofInt 64 (a.toInt * (b.toNat : Int) / 2 ^ 64)

/-- Quotient of signed division, rounded towards zero (R63). -/
def opDiv (a b : Word) : Word :=
  if b = 0 then BitVec.allOnes 64 else BitVec.ofInt 64 (a.toInt.tdiv b.toInt)

/-- Quotient of unsigned division (R63). -/
def opDivu (a b : Word) : Word :=
  if b = 0 then BitVec.allOnes 64 else BitVec.ofNat 64 (a.toNat / b.toNat)

/-- Remainder of signed division: it takes the sign of the dividend (R63). -/
def opRem (a b : Word) : Word :=
  if b = 0 then a else BitVec.ofInt 64 (a.toInt - a.toInt.tdiv b.toInt * b.toInt)

/-- Remainder of unsigned division (R63). -/
def opRemu (a b : Word) : Word :=
  if b = 0 then a else BitVec.ofNat 64 (a.toNat - a.toNat / b.toNat * b.toNat)

/-- The number of leading zero bits among the low `n` bits of `a`. -/
def leadingZeros (a : Word) : Nat → Nat
  | 0 => 0
  | n + 1 => if bitAt a n then 0 else leadingZeros a n + 1

/-- The number of zero bits of `a` from bit `n` upwards, over `k` bits. -/
def trailingZeros (a : Word) (n : Nat) : Nat → Nat
  | 0 => 0
  | k + 1 => if bitAt a n then 0 else trailingZeros a (n + 1) k + 1

/-- The number of one bits among the low `n` bits of `a`. -/
def onesBelow (a : Word) : Nat → Nat
  | 0 => 0
  | n + 1 => onesBelow a n + (if bitAt a n then 1 else 0)

def opClz (a : Word) : Word := BitVec.ofNat 64 (leadingZeros a 64)
def opCtz (a : Word) : Word := BitVec.ofNat 64 (trailingZeros a 0 64)
def opCpop (a : Word) : Word := BitVec.ofNat 64 (onesBelow a 64)
def opSextb (a : Word) : Word := (slice a 0 8).signExtend 64
def opSexth (a : Word) : Word := (slice a 0 16).signExtend 64
def opSextw (a : Word) : Word := (slice a 0 32).signExtend 64
def opZextw (a : Word) : Word := (slice a 0 32).setWidth 64
def opShadd1 (a b : Word) : Word := a * 2 + b
def opShadd2 (a b : Word) : Word := a * 4 + b
def opShadd3 (a b : Word) : Word := a * 8 + b

/-! ### The shared forms -/

/-- X[d] := f (X[a], X[b]) with latency `lat` (R61). -/
def intRR (i : Instr) (st : StallCode) (d a b : XReg) (lat : Nat) (f : Word → Word → Word)
    (s : State) : State :=
  let q : Issue := { word := encode i, stall := st, units := .all, reads := [.x a, .x b],
                     writes := [.x d] }
  s.issue q fun s => (s.writeX d (f (s.readX a) (s.readX b)) lat st).finish q

/-- X[d] := f (X[a], X[b]) as a scoreboarded result (R59). -/
def intDiv (i : Instr) (st : StallCode) (d a b : XReg) (f : Word → Word → Word)
    (s : State) : State :=
  let q : Issue := { word := encode i, stall := st, units := .all, reads := [.x a, .x b],
                     writes := [.x d] }
  s.issue q fun s => (s.commitX d (f (s.readX a) (s.readX b))).finish q

/-- X[d] := f (X[a]) with latency `lat` (R61). -/
def intR (i : Instr) (st : StallCode) (d a : XReg) (lat : Nat) (f : Word → Word) (s : State) :
    State :=
  let q : Issue := { word := encode i, stall := st, units := .all, reads := [.x a],
                     writes := [.x d] }
  s.issue q fun s => (s.writeX d (f (s.readX a)) lat st).finish q

/-- X[d] := k, where k may depend on the pc (R66). -/
def intU (i : Instr) (st : StallCode) (d : XReg) (f : Word → Word) (s : State) : State :=
  let q : Issue := { word := encode i, stall := st, units := .all, writes := [.x d] }
  s.issue q fun s => (s.writeX d (f s.pc) 1 st).finish q

/-- Sext(imm12, 12) as a register image. -/
def imm12 (i : BitVec 12) : Word := i.signExtend 64

/-- Sext(imm17, 17) × 2^12 as a register image (R66). -/
def imm17 (i : BitVec 17) : Word := i.signExtend 64 <<< 12

/-! ### The meanings -/

/-- ADD (R62). -/
def execAdd (st : StallCode) (d a b : XReg) (s : State) :
    Host.Outcome State Fault Refusal :=
  .next (intRR (.add st d a b) st d a b 1 opAdd s)

/-- SUB (R62). -/
def execSub (st : StallCode) (d a b : XReg) (s : State) :
    Host.Outcome State Fault Refusal :=
  .next (intRR (.sub st d a b) st d a b 1 opSub s)

/-- AND (R62). -/
def execAnd (st : StallCode) (d a b : XReg) (s : State) :
    Host.Outcome State Fault Refusal :=
  .next (intRR (.and st d a b) st d a b 1 opAnd s)

/-- OR (R62). -/
def execOr (st : StallCode) (d a b : XReg) (s : State) :
    Host.Outcome State Fault Refusal :=
  .next (intRR (.or st d a b) st d a b 1 opOr s)

/-- XOR (R62). -/
def execXor (st : StallCode) (d a b : XReg) (s : State) :
    Host.Outcome State Fault Refusal :=
  .next (intRR (.xor st d a b) st d a b 1 opXor s)

/-- ANDN (R62). -/
def execAndn (st : StallCode) (d a b : XReg) (s : State) :
    Host.Outcome State Fault Refusal :=
  .next (intRR (.andn st d a b) st d a b 1 opAndn s)

/-- ORN (R62). -/
def execOrn (st : StallCode) (d a b : XReg) (s : State) :
    Host.Outcome State Fault Refusal :=
  .next (intRR (.orn st d a b) st d a b 1 opOrn s)

/-- SLL (R62). -/
def execSll (st : StallCode) (d a b : XReg) (s : State) :
    Host.Outcome State Fault Refusal :=
  .next (intRR (.sll st d a b) st d a b 1 opSll s)

/-- SRL (R62). -/
def execSrl (st : StallCode) (d a b : XReg) (s : State) :
    Host.Outcome State Fault Refusal :=
  .next (intRR (.srl st d a b) st d a b 1 opSrl s)

/-- SRA (R62). -/
def execSra (st : StallCode) (d a b : XReg) (s : State) :
    Host.Outcome State Fault Refusal :=
  .next (intRR (.sra st d a b) st d a b 1 opSra s)

/-- ROL (R62). -/
def execRol (st : StallCode) (d a b : XReg) (s : State) :
    Host.Outcome State Fault Refusal :=
  .next (intRR (.rol st d a b) st d a b 1 opRol s)

/-- ROR (R62). -/
def execRor (st : StallCode) (d a b : XReg) (s : State) :
    Host.Outcome State Fault Refusal :=
  .next (intRR (.ror st d a b) st d a b 1 opRor s)

/-- SLT (R62). -/
def execSlt (st : StallCode) (d a b : XReg) (s : State) :
    Host.Outcome State Fault Refusal :=
  .next (intRR (.slt st d a b) st d a b 1 opSlt s)

/-- SLTU (R62). -/
def execSltu (st : StallCode) (d a b : XReg) (s : State) :
    Host.Outcome State Fault Refusal :=
  .next (intRR (.sltu st d a b) st d a b 1 opSltu s)

/-- MIN (R62). -/
def execMin (st : StallCode) (d a b : XReg) (s : State) :
    Host.Outcome State Fault Refusal :=
  .next (intRR (.min st d a b) st d a b 1 opMin s)

/-- MAX (R62). -/
def execMax (st : StallCode) (d a b : XReg) (s : State) :
    Host.Outcome State Fault Refusal :=
  .next (intRR (.max st d a b) st d a b 1 opMax s)

/-- MINU (R62). -/
def execMinu (st : StallCode) (d a b : XReg) (s : State) :
    Host.Outcome State Fault Refusal :=
  .next (intRR (.minu st d a b) st d a b 1 opMinu s)

/-- MAXU (R62). -/
def execMaxu (st : StallCode) (d a b : XReg) (s : State) :
    Host.Outcome State Fault Refusal :=
  .next (intRR (.maxu st d a b) st d a b 1 opMaxu s)

/-- MUL (R62). -/
def execMul (st : StallCode) (d a b : XReg) (s : State) :
    Host.Outcome State Fault Refusal :=
  .next (intRR (.mul st d a b) st d a b 3 opMul s)

/-- MULH (R62). -/
def execMulh (st : StallCode) (d a b : XReg) (s : State) :
    Host.Outcome State Fault Refusal :=
  .next (intRR (.mulh st d a b) st d a b 3 opMulh s)

/-- MULHU (R62). -/
def execMulhu (st : StallCode) (d a b : XReg) (s : State) :
    Host.Outcome State Fault Refusal :=
  .next (intRR (.mulhu st d a b) st d a b 3 opMulhu s)

/-- MULHSU (R62). -/
def execMulhsu (st : StallCode) (d a b : XReg) (s : State) :
    Host.Outcome State Fault Refusal :=
  .next (intRR (.mulhsu st d a b) st d a b 3 opMulhsu s)

/-- DIV (R63). -/
def execDiv (st : StallCode) (d a b : XReg) (s : State) :
    Host.Outcome State Fault Refusal :=
  .next (intDiv (.div st d a b) st d a b opDiv s)

/-- DIVU (R63). -/
def execDivu (st : StallCode) (d a b : XReg) (s : State) :
    Host.Outcome State Fault Refusal :=
  .next (intDiv (.divu st d a b) st d a b opDivu s)

/-- REM (R63). -/
def execRem (st : StallCode) (d a b : XReg) (s : State) :
    Host.Outcome State Fault Refusal :=
  .next (intDiv (.rem st d a b) st d a b opRem s)

/-- REMU (R63). -/
def execRemu (st : StallCode) (d a b : XReg) (s : State) :
    Host.Outcome State Fault Refusal :=
  .next (intDiv (.remu st d a b) st d a b opRemu s)

/-- CLZ (R62). -/
def execClz (st : StallCode) (d a : XReg) (s : State) :
    Host.Outcome State Fault Refusal :=
  .next (intR (.clz st d a) st d a 2 opClz s)

/-- CTZ (R62). -/
def execCtz (st : StallCode) (d a : XReg) (s : State) :
    Host.Outcome State Fault Refusal :=
  .next (intR (.ctz st d a) st d a 2 opCtz s)

/-- CPOP (R62). -/
def execCpop (st : StallCode) (d a : XReg) (s : State) :
    Host.Outcome State Fault Refusal :=
  .next (intR (.cpop st d a) st d a 2 opCpop s)

/-- SEXTB (R62). -/
def execSextb (st : StallCode) (d a : XReg) (s : State) :
    Host.Outcome State Fault Refusal :=
  .next (intR (.sextb st d a) st d a 1 opSextb s)

/-- SEXTH (R62). -/
def execSexth (st : StallCode) (d a : XReg) (s : State) :
    Host.Outcome State Fault Refusal :=
  .next (intR (.sexth st d a) st d a 1 opSexth s)

/-- SEXTW (R62). -/
def execSextw (st : StallCode) (d a : XReg) (s : State) :
    Host.Outcome State Fault Refusal :=
  .next (intR (.sextw st d a) st d a 1 opSextw s)

/-- ZEXTW (R62). -/
def execZextw (st : StallCode) (d a : XReg) (s : State) :
    Host.Outcome State Fault Refusal :=
  .next (intR (.zextw st d a) st d a 1 opZextw s)

/-- SHADD1 (R62). -/
def execShadd1 (st : StallCode) (d a b : XReg) (s : State) :
    Host.Outcome State Fault Refusal :=
  .next (intRR (.shadd1 st d a b) st d a b 1 opShadd1 s)

/-- SHADD2 (R62). -/
def execShadd2 (st : StallCode) (d a b : XReg) (s : State) :
    Host.Outcome State Fault Refusal :=
  .next (intRR (.shadd2 st d a b) st d a b 1 opShadd2 s)

/-- SHADD3 (R62). -/
def execShadd3 (st : StallCode) (d a b : XReg) (s : State) :
    Host.Outcome State Fault Refusal :=
  .next (intRR (.shadd3 st d a b) st d a b 1 opShadd3 s)

/-- ADDI: the immediate is sign-extended (R64). -/
def execAddi (st : StallCode) (d a : XReg) (i : BitVec 12) (s : State) :
    Host.Outcome State Fault Refusal :=
  .next (intR (.addi st d a i) st d a 1 (fun v => opAdd v (imm12 i)) s)

/-- ANDI: the immediate is sign-extended (R64). -/
def execAndi (st : StallCode) (d a : XReg) (i : BitVec 12) (s : State) :
    Host.Outcome State Fault Refusal :=
  .next (intR (.andi st d a i) st d a 1 (fun v => opAnd v (imm12 i)) s)

/-- ORI: the immediate is sign-extended (R64). -/
def execOri (st : StallCode) (d a : XReg) (i : BitVec 12) (s : State) :
    Host.Outcome State Fault Refusal :=
  .next (intR (.ori st d a i) st d a 1 (fun v => opOr v (imm12 i)) s)

/-- XORI: the immediate is sign-extended (R64). -/
def execXori (st : StallCode) (d a : XReg) (i : BitVec 12) (s : State) :
    Host.Outcome State Fault Refusal :=
  .next (intR (.xori st d a i) st d a 1 (fun v => opXor v (imm12 i)) s)

/-- SLTI: the immediate is sign-extended (R64). -/
def execSlti (st : StallCode) (d a : XReg) (i : BitVec 12) (s : State) :
    Host.Outcome State Fault Refusal :=
  .next (intR (.slti st d a i) st d a 1 (fun v => opSlt v (imm12 i)) s)

/-- SLTIU: the immediate is sign-extended (R64). -/
def execSltiu (st : StallCode) (d a : XReg) (i : BitVec 12) (s : State) :
    Host.Outcome State Fault Refusal :=
  .next (intR (.sltiu st d a i) st d a 1 (fun v => opSltu v (imm12 i)) s)

/-- SLLI (R65). -/
def execSlli (st : StallCode) (d a : XReg) (n : BitVec 6) (s : State) :
    Host.Outcome State Fault Refusal :=
  .next (intR (.slli st d a n) st d a 1 (fun v => opSll v (n.setWidth 64)) s)

/-- SRLI (R65). -/
def execSrli (st : StallCode) (d a : XReg) (n : BitVec 6) (s : State) :
    Host.Outcome State Fault Refusal :=
  .next (intR (.srli st d a n) st d a 1 (fun v => opSrl v (n.setWidth 64)) s)

/-- SRAI (R65). -/
def execSrai (st : StallCode) (d a : XReg) (n : BitVec 6) (s : State) :
    Host.Outcome State Fault Refusal :=
  .next (intR (.srai st d a n) st d a 1 (fun v => opSra v (n.setWidth 64)) s)

/-- RORI (R65). -/
def execRori (st : StallCode) (d a : XReg) (n : BitVec 6) (s : State) :
    Host.Outcome State Fault Refusal :=
  .next (intR (.rori st d a n) st d a 1 (fun v => opRor v (n.setWidth 64)) s)

/-- LDHI (R66). -/
def execLdhi (st : StallCode) (d : XReg) (i : BitVec 17) (s : State) :
    Host.Outcome State Fault Refusal :=
  .next (intU (.ldhi st d i) st d (fun _ => imm17 i) s)

/-- ADDPC (R66). -/
def execAddpc (st : StallCode) (d : XReg) (i : BitVec 17) (s : State) :
    Host.Outcome State Fault Refusal :=
  .next (intU (.addpc st d i) st d (fun pc => pc + imm17 i) s)

end Sys2Proof.Machine
end

