-- ==== Sys2Proof/Machine/Vector.lean ====
section
/-! DEFINITION. The vector unit: element-wise operations, compares, moves, permutations,
reductions and mask operations (09), the queue-fed reduction (09 R229–R232), and the special
functions of the SFU (09 R222). -/
namespace Sys2Proof.Machine

/-! ### Shared forms (09 R218, R219) -/

/-- An instruction that writes V[d] with an image computed from its sources: pops, flags, and the
write or push. `old` says that it reads the old contents of d; `lat` is none for a scoreboarded
result. -/
def vecInstr (i : Instr) (st : StallCode) (d : VReg) (srcs : List VReg) (ms : List MReg)
    (xs : List XReg) (old : Bool) (lat : Option Nat) (f : State → Vec × FpFlags) (s : State) :
    State :=
  let pops := if old then d :: srcs else srcs
  let q : Issue := { word := encode i, stall := st, vector := true,
                     reads := vReads pops ++ ms.map .m ++ xs.map .x, writes := [.v d.toNat] }
  s.issue q fun s =>
    match s.queueWait pops [d] with
    | some k => s.stay k
    | none =>
      let (v, fl) := f s
      let side := s.tile.usesQueue (d :: srcs)
      let s := (s.popAll pops).orFlags fl
      let s := match lat with
        | some n => s.writeV d v n st
        | none => s.commitVR d v
      s.finish { q with side := side }

/-- The elements of `t` under a mask: `f` on the enabled ones (09 R219). -/
def State.lanesOf (s : State) (d : VReg) (m : MReg) (t : ElemType) (f : Nat → Nat × FpFlags) :
    Vec × FpFlags :=
  mapLanes t.width (lanes t.width) (s.readM m) f (elem (s.readV d) t.width)

/-- Every element of `t` is enabled: no old contents are read. -/
def State.full (s : State) (m : MReg) (t : ElemType) : Bool := allEnabled (s.readM m) t.width

/-- A binary operation on elements. -/
def vecBin (i : Instr) (st : StallCode) (d a b : VReg) (m : MReg) (t : ElemType)
    (lat : Option Nat) (op : FpMode → Nat → Nat → Nat × FpFlags) (s : State) : State :=
  vecInstr i st d [a, b] [m] [] (!s.full m t) lat (fun s =>
    s.lanesOf d m t fun k =>
      op s.tile.fpMode (elem (s.readV a) t.width k) (elem (s.readV b) t.width k)) s

/-- An operation of the FMA family: the old destination is the third operand (09 R220). -/
def vecFma (i : Instr) (st : StallCode) (d a b : VReg) (m : MReg) (t : ElemType)
    (op : FpMode → Nat → Nat → Nat → Nat × FpFlags) (s : State) : State :=
  vecInstr i st d [a, b] [m] [] true (some 6) (fun s =>
    s.lanesOf d m t fun k =>
      op s.tile.fpMode (elem (s.readV a) t.width k) (elem (s.readV b) t.width k)
        (elem (s.readV d) t.width k)) s

/-- A unary operation on elements. -/
def vecUn (i : Instr) (st : StallCode) (d a : VReg) (m : MReg) (t : ElemType)
    (lat : Option Nat) (op : FpMode → Nat → Nat × FpFlags) (s : State) : State :=
  vecInstr i st d [a] [m] [] (!s.full m t) lat (fun s =>
    s.lanesOf d m t fun k => op s.tile.fpMode (elem (s.readV a) t.width k)) s

/-! ### Operations on elements (09 R220, R221) -/

/-- An integer operation without flags. -/
def intElem (t : ElemType) (f : Int → Int → Int) (a b : Nat) : Nat × FpFlags :=
  (t.ofInt (f (t.toInt a) (t.toInt b)), 0)

/-- The sign bit of a floating-point type. -/
def signBit (t : ElemType) : Nat := 2 ^ (t.width - 1)

/-- −a on a floating-point image (09 R221). -/
def fNeg (t : ElemType) (a : Nat) : Nat := if a < signBit t then a + signBit t else a - signBit t

def elAdd (t : ElemType) (md : FpMode) (a b : Nat) : Nat × FpFlags :=
  if t.isFp then fAdd t md a b else intElem t (· + ·) a b

def elSub (t : ElemType) (md : FpMode) (a b : Nat) : Nat × FpFlags :=
  if t.isFp then fAdd t md a (fNeg t b) else intElem t (· - ·) a b

def elMul (t : ElemType) (md : FpMode) (a b : Nat) : Nat × FpFlags :=
  if t.isFp then fMul t md a b else intElem t (· * ·) a b

def elMulh (t : ElemType) (_ : FpMode) (a b : Nat) : Nat × FpFlags :=
  intElem t (fun a b => a * b / (2 ^ t.width : Nat)) a b

def elFma (t : ElemType) (md : FpMode) (a b c : Nat) : Nat × FpFlags :=
  if t.isFp then fFma t md false false a b c
  else (t.ofInt (t.toInt a * t.toInt b + t.toInt c), 0)

def elFms (t : ElemType) (md : FpMode) (a b c : Nat) : Nat × FpFlags :=
  if t.isFp then fFma t md false true a b c
  else (t.ofInt (t.toInt a * t.toInt b - t.toInt c), 0)

def elFnma (t : ElemType) (md : FpMode) (a b c : Nat) : Nat × FpFlags :=
  if t.isFp then fFma t md true false a b c
  else (t.ofInt (t.toInt c - t.toInt a * t.toInt b), 0)

def elMin (t : ElemType) (_ : FpMode) (a b : Nat) : Nat × FpFlags :=
  if t.isFp then (fMin t a b, 0) else intElem t min a b

def elMax (t : ElemType) (_ : FpMode) (a b : Nat) : Nat × FpFlags :=
  if t.isFp then (fMax t a b, 0) else intElem t max a b

def elAbs (t : ElemType) (_ : FpMode) (a : Nat) : Nat × FpFlags :=
  if t.isFp then (a % signBit t, 0) else (t.ofInt (t.toInt a).natAbs, 0)

def elNeg (t : ElemType) (_ : FpMode) (a : Nat) : Nat × FpFlags :=
  if t.isFp then (fNeg t a, 0) else (t.ofInt (-t.toInt a), 0)

def elAnd (_ : ElemType) (_ : FpMode) (a b : Nat) : Nat × FpFlags := (a &&& b, 0)
def elOr (_ : ElemType) (_ : FpMode) (a b : Nat) : Nat × FpFlags := (a ||| b, 0)
def elXor (_ : ElemType) (_ : FpMode) (a b : Nat) : Nat × FpFlags := (a ^^^ b, 0)

/-- Shifts use the low log2(w) bits of b (09 R220). -/
def elSll (t : ElemType) (_ : FpMode) (a b : Nat) : Nat × FpFlags :=
  (a * 2 ^ (b % t.width) % 2 ^ t.width, 0)

def elSrl (t : ElemType) (_ : FpMode) (a b : Nat) : Nat × FpFlags := (a / 2 ^ (b % t.width), 0)

def elSra (t : ElemType) (_ : FpMode) (a b : Nat) : Nat × FpFlags :=
  let v : Int := if a < signBit t then a else (a : Int) - (2 ^ t.width : Nat)
  (t.ofInt (v / (2 ^ (b % t.width) : Nat)), 0)

def elSadd (t : ElemType) (_ : FpMode) (a b : Nat) : Nat × FpFlags :=
  intElem t (fun a b => t.clamp (a + b)) a b

def elSsub (t : ElemType) (_ : FpMode) (a b : Nat) : Nat × FpFlags :=
  intElem t (fun a b => t.clamp (a - b)) a b

/-- The latency of an operation whose FP form takes 6 cc and whose INT form takes 4 (09 R217). -/
def fpLat (t : ElemType) : Option Nat := some (if t.isFp then 6 else 4)

/-! ### Element-wise instructions -/

/-- VADD (09 R220, R221). -/
def execVadd (st : StallCode) (d a b : VReg) (m : MReg) (t : ElemType) (s : State) :
    Host.Outcome State Fault Refusal :=
  .next (vecBin (.vadd st d a b m t) st d a b m t (fpLat t) (elAdd t) s)

/-- VSUB (09 R220, R221). -/
def execVsub (st : StallCode) (d a b : VReg) (m : MReg) (t : ElemType) (s : State) :
    Host.Outcome State Fault Refusal :=
  .next (vecBin (.vsub st d a b m t) st d a b m t (fpLat t) (elSub t) s)

/-- VMUL (09 R220, R221). -/
def execVmul (st : StallCode) (d a b : VReg) (m : MReg) (t : ElemType) (s : State) :
    Host.Outcome State Fault Refusal :=
  .next (vecBin (.vmul st d a b m t) st d a b m t (some 6) (elMul t) s)

/-- VMULH (09 R220). -/
def execVmulh (st : StallCode) (d a b : VReg) (m : MReg) (t : ElemType) (s : State) :
    Host.Outcome State Fault Refusal :=
  .next (vecBin (.vmulh st d a b m t) st d a b m t (some 6) (elMulh t) s)

/-- VFMA (09 R220, R221). -/
def execVfma (st : StallCode) (d a b : VReg) (m : MReg) (t : ElemType) (s : State) :
    Host.Outcome State Fault Refusal :=
  .next (vecFma (.vfma st d a b m t) st d a b m t (elFma t) s)

/-- VFMS (09 R220, R221). -/
def execVfms (st : StallCode) (d a b : VReg) (m : MReg) (t : ElemType) (s : State) :
    Host.Outcome State Fault Refusal :=
  .next (vecFma (.vfms st d a b m t) st d a b m t (elFms t) s)

/-- VFNMA (09 R220, R221). -/
def execVfnma (st : StallCode) (d a b : VReg) (m : MReg) (t : ElemType) (s : State) :
    Host.Outcome State Fault Refusal :=
  .next (vecFma (.vfnma st d a b m t) st d a b m t (elFnma t) s)

/-- VDIV (09 R222). -/
def execVdiv (st : StallCode) (d a b : VReg) (m : MReg) (t : ElemType) (s : State) :
    Host.Outcome State Fault Refusal :=
  .next (vecBin (.vdiv st d a b m t) st d a b m t none (fDiv t) s)

/-- VSQRT (09 R222). -/
def execVsqrt (st : StallCode) (d a : VReg) (m : MReg) (t : ElemType) (s : State) :
    Host.Outcome State Fault Refusal :=
  .next (vecUn (.vsqrt st d a m t) st d a m t none (fSqrt t) s)

/-- VMIN (09 R220, R221). -/
def execVmin (st : StallCode) (d a b : VReg) (m : MReg) (t : ElemType) (s : State) :
    Host.Outcome State Fault Refusal :=
  .next (vecBin (.vmin st d a b m t) st d a b m t (fpLat t) (elMin t) s)

/-- VMAX (09 R220, R221). -/
def execVmax (st : StallCode) (d a b : VReg) (m : MReg) (t : ElemType) (s : State) :
    Host.Outcome State Fault Refusal :=
  .next (vecBin (.vmax st d a b m t) st d a b m t (fpLat t) (elMax t) s)

/-- VABS (09 R220, R221). -/
def execVabs (st : StallCode) (d a : VReg) (m : MReg) (t : ElemType) (s : State) :
    Host.Outcome State Fault Refusal :=
  .next (vecUn (.vabs st d a m t) st d a m t (fpLat t) (elAbs t) s)

/-- VNEG (09 R220, R221). -/
def execVneg (st : StallCode) (d a : VReg) (m : MReg) (t : ElemType) (s : State) :
    Host.Outcome State Fault Refusal :=
  .next (vecUn (.vneg st d a m t) st d a m t (fpLat t) (elNeg t) s)

/-- VAND (09 R220). -/
def execVand (st : StallCode) (d a b : VReg) (m : MReg) (t : ElemType) (s : State) :
    Host.Outcome State Fault Refusal :=
  .next (vecBin (.vand st d a b m t) st d a b m t (some 4) (elAnd t) s)

/-- VOR (09 R220). -/
def execVor (st : StallCode) (d a b : VReg) (m : MReg) (t : ElemType) (s : State) :
    Host.Outcome State Fault Refusal :=
  .next (vecBin (.vor st d a b m t) st d a b m t (some 4) (elOr t) s)

/-- VXOR (09 R220). -/
def execVxor (st : StallCode) (d a b : VReg) (m : MReg) (t : ElemType) (s : State) :
    Host.Outcome State Fault Refusal :=
  .next (vecBin (.vxor st d a b m t) st d a b m t (some 4) (elXor t) s)

/-- VSLL (09 R220). -/
def execVsll (st : StallCode) (d a b : VReg) (m : MReg) (t : ElemType) (s : State) :
    Host.Outcome State Fault Refusal :=
  .next (vecBin (.vsll st d a b m t) st d a b m t (some 4) (elSll t) s)

/-- VSRL (09 R220). -/
def execVsrl (st : StallCode) (d a b : VReg) (m : MReg) (t : ElemType) (s : State) :
    Host.Outcome State Fault Refusal :=
  .next (vecBin (.vsrl st d a b m t) st d a b m t (some 4) (elSrl t) s)

/-- VSRA (09 R220). -/
def execVsra (st : StallCode) (d a b : VReg) (m : MReg) (t : ElemType) (s : State) :
    Host.Outcome State Fault Refusal :=
  .next (vecBin (.vsra st d a b m t) st d a b m t (some 4) (elSra t) s)

/-- VSADD (09 R220). -/
def execVsadd (st : StallCode) (d a b : VReg) (m : MReg) (t : ElemType) (s : State) :
    Host.Outcome State Fault Refusal :=
  .next (vecBin (.vsadd st d a b m t) st d a b m t (some 4) (elSadd t) s)

/-- VSSUB (09 R220). -/
def execVssub (st : StallCode) (d a b : VReg) (m : MReg) (t : ElemType) (s : State) :
    Host.Outcome State Fault Refusal :=
  .next (vecBin (.vssub st d a b m t) st d a b m t (some 4) (elSsub t) s)

/-- VEXP2 (09 R222). -/
def execVexp2 (st : StallCode) (d a : VReg) (m : MReg) (t : ElemType) (s : State) :
    Host.Outcome State Fault Refusal :=
  .next (vecUn (.vexp2 st d a m t) st d a m t none (fExp2 t) s)

/-- VLOG2 (09 R222). -/
def execVlog2 (st : StallCode) (d a : VReg) (m : MReg) (t : ElemType) (s : State) :
    Host.Outcome State Fault Refusal :=
  .next (vecUn (.vlog2 st d a m t) st d a m t none (fLog2 t) s)

/-- VRCP (09 R222). -/
def execVrcp (st : StallCode) (d a : VReg) (m : MReg) (t : ElemType) (s : State) :
    Host.Outcome State Fault Refusal :=
  .next (vecUn (.vrcp st d a m t) st d a m t none (fRcp t) s)

/-- VRSQ (09 R222). -/
def execVrsq (st : StallCode) (d a : VReg) (m : MReg) (t : ElemType) (s : State) :
    Host.Outcome State Fault Refusal :=
  .next (vecUn (.vrsq st d a m t) st d a m t none (fRsq t) s)

/-! ### Compare and select (09 R223, R224) -/

/-- A compare: M[d] under a mask, with NV for a NaN operand where `nv`. It counts as a read of M[d]
for STALLSHORT only where some element is disabled: 09 R218 names only that read of a destination,
while the pseudocode of 09 R223 reads it always (DESIGN CHOICE, log 67). -/
def vecCmp (i : Instr) (st : StallCode) (d : MReg) (a b : VReg) (m : MReg) (t : ElemType)
    (nv : Bool) (int : Int → Int → Bool) (fp : FVal → FVal → Bool) (s : State) : State :=
  let q : Issue := { word := encode i, stall := st, vector := true,
                     reads := vReads [a, b] ++ [.m m] ++ (if s.full m t then [] else [.m d]),
                     writes := [.m d] }
  s.issue q fun s =>
    match s.queueWait [a, b] [] with
    | some k => s.stay k
    | none =>
      let w := t.width
      let mask := s.readM m
      let x (k : Nat) : Nat := elem (s.readV a) w k
      let y (k : Nat) : Nat := elem (s.readV b) w k
      let c (k : Nat) : Bool :=
        if t.isFp then fp (t.fmt.value (x k)) (t.fmt.value (y k)) else int (t.toInt (x k)) (t.toInt (y k))
      let old := s.readM d
      let r := (List.range (lanes w)).foldl (fun (r : Word) k =>
        if (if enabled mask w k then c k else bitAt old k) then r ||| (1#64 <<< k) else r) 0
      let invalid := nv && t.isFp && (List.range (lanes w)).any fun k =>
        enabled mask w k && ((t.fmt.value (x k)).isNaN || (t.fmt.value (y k)).isNaN)
      let side := s.tile.usesQueue [a, b]
      let s := (s.popAll [a, b]).orFlags (if invalid then flagNV else 0)
      (s.writeM d r 4 st).finish { q with side := side }

/-- VCMPEQ (09 R223). -/
def execVcmpeq (st : StallCode) (d : MReg) (a b : VReg) (m : MReg) (t : ElemType) (s : State) :
    Host.Outcome State Fault Refusal :=
  .next (vecCmp (.vcmpeq st d a b m t) st d a b m t false (fun a b => a == b)
    (fun a b => !a.isNaN && !b.isNaN && !a.lt false b && !b.lt false a) s)

/-- VCMPLT (09 R223). -/
def execVcmplt (st : StallCode) (d : MReg) (a b : VReg) (m : MReg) (t : ElemType) (s : State) :
    Host.Outcome State Fault Refusal :=
  .next (vecCmp (.vcmplt st d a b m t) st d a b m t true (fun a b => decide (a < b))
    (fun a b => a.lt false b) s)

/-- VCMPLE (09 R223). -/
def execVcmple (st : StallCode) (d : MReg) (a b : VReg) (m : MReg) (t : ElemType) (s : State) :
    Host.Outcome State Fault Refusal :=
  .next (vecCmp (.vcmple st d a b m t) st d a b m t true (fun a b => decide (a ≤ b))
    (fun a b => !a.isNaN && !b.isNaN && !b.lt false a) s)

/-- An image of elements of `t` without old contents. -/
def packElems (t : ElemType) (f : Nat → Nat) : Vec := pack t.width (lanes t.width) f

/-- VSEL (09 R224): the mask selects. -/
def execVsel (st : StallCode) (d a b : VReg) (m : MReg) (t : ElemType) (s : State) :
    Host.Outcome State Fault Refusal :=
  .next (vecInstr (.vsel st d a b m t) st d [a, b] [m] [] false (some 4) (fun s =>
    (packElems t fun k =>
      elem (s.readV (if bitAt (s.readM m) k then a else b)) t.width k, 0)) s)

/-! ### Moves and permutations (09 R225–R227) -/

/-- VMV (09 R225). -/
def execVmv (st : StallCode) (d a : VReg) (m : MReg) (t : ElemType) (s : State) :
    Host.Outcome State Fault Refusal :=
  .next (vecUn (.vmv st d a m t) st d a m t (some 4) (fun _ a => (a, 0)) s)

/-- VBCAST (09 R225). -/
def execVbcast (st : StallCode) (d : VReg) (a : XReg) (m : MReg) (t : ElemType) (s : State) :
    Host.Outcome State Fault Refusal :=
  .next (vecInstr (.vbcast st d a m t) st d [] [m] [a] (!s.full m t) (some 4) (fun s =>
    s.lanesOf d m t fun _ => ((s.readX a).toNat % 2 ^ t.width, 0)) s)

/-- VMVX: an element into an x register (09 R225). -/
def execVmvx (st : StallCode) (d : XReg) (a : VReg) (b : XReg) (t : ElemType) (s : State) :
    Host.Outcome State Fault Refusal :=
  let q : Issue := { word := encode (.vmvx st d a b t), stall := st, vector := true,
                     reads := [.v a.toNat, .x b], writes := [.x d] }
  .next (s.issue q fun s =>
    match s.queueWait [a] [] with
    | some k => s.stay k
    | none =>
      let j := (s.readX b).toNat
      let v : Word := if j < lanes t.width then
          (if t.isSigned then BitVec.ofInt 64 (t.toInt (elem (s.readV a) t.width j))
           else BitVec.ofNat 64 (elem (s.readV a) t.width j))
        else 0
      let side := s.tile.usesQueue [a]
      ((s.popAll [a]).writeX d v 4 st).finish { q with side := side })

/-- VSLIDEUP (09 R226). -/
def execVslideup (st : StallCode) (d a : VReg) (b : XReg) (m : MReg) (t : ElemType) (s : State) :
    Host.Outcome State Fault Refusal :=
  .next (vecInstr (.vslideup st d a b m t) st d [a] [m] [b] (!s.full m t) (some 4) (fun s =>
    let n := (s.readX b).toNat
    s.lanesOf d m t fun k => (if n ≤ k then elem (s.readV a) t.width (k - n) else 0, 0)) s)

/-- VSLIDEDN (09 R226). -/
def execVslidedn (st : StallCode) (d a : VReg) (b : XReg) (m : MReg) (t : ElemType) (s : State) :
    Host.Outcome State Fault Refusal :=
  .next (vecInstr (.vslidedn st d a b m t) st d [a] [m] [b] (!s.full m t) (some 4) (fun s =>
    let n := (s.readX b).toNat
    s.lanesOf d m t fun k =>
      (if k + n < lanes t.width then elem (s.readV a) t.width (k + n) else 0, 0)) s)

/-- VPERM (09 R226). -/
def execVperm (st : StallCode) (d a b : VReg) (m : MReg) (t : ElemType) (s : State) :
    Host.Outcome State Fault Refusal :=
  .next (vecInstr (.vperm st d a b m t) st d [a, b] [m] [] (!s.full m t) (some 4) (fun s =>
    s.lanesOf d m t fun k =>
      (elem (s.readV a) t.width (elem (s.readV b) t.width k % lanes t.width), 0)) s)

/-- The number of selected elements below `k`. -/
def selectedBelow (m : Word) (k : Nat) : Nat := ((List.range k).filter (bitAt m)).length

/-- VCOMPRESS (09 R227). -/
def execVcompress (st : StallCode) (d a : VReg) (m : MReg) (t : ElemType) (s : State) :
    Host.Outcome State Fault Refusal :=
  .next (vecInstr (.vcompress st d a m t) st d [a] [m] [] false (some 4) (fun s =>
    let on := (List.range (lanes t.width)).filter (bitAt (s.readM m))
    (packElems t fun j => match on[j]? with
      | some k => elem (s.readV a) t.width k
      | none => 0, 0)) s)

/-- VEXPAND (09 R227). -/
def execVexpand (st : StallCode) (d a : VReg) (m : MReg) (t : ElemType) (s : State) :
    Host.Outcome State Fault Refusal :=
  .next (vecInstr (.vexpand st d a m t) st d [a] [m] [] false (some 4) (fun s =>
    (packElems t fun k => if bitAt (s.readM m) k then
        elem (s.readV a) t.width (selectedBelow (s.readM m) k)
      else 0, 0)) s)

/-! ### Reductions (09 R228, R233) -/

/-- A reduction of element 0 of V[b] and the enabled elements of V[a] into element 0 of V[d]. -/
def vecRed (i : Instr) (st : StallCode) (d a b : VReg) (m : MReg) (t : ElemType)
    (f : FpMode → List Nat → Nat × FpFlags) (s : State) : State :=
  vecInstr i st d [a, b] [m] [] false (some 10) (fun s =>
    let w := t.width
    let on := (List.range (lanes w)).filter (enabled (s.readM m) w)
    let (r, fl) := f s.tile.fpMode (elem (s.readV b) w 0 :: on.map (elem (s.readV a) w))
    (pack w (lanes w) fun k => if k = 0 then r else 0, fl)) s

/-- VREDSUM (09 R228). -/
def execVredsum (st : StallCode) (d a b : VReg) (m : MReg) (t : ElemType) (s : State) :
    Host.Outcome State Fault Refusal :=
  .next (vecRed (.vredsum st d a b m t) st d a b m t (fun md l =>
    if t.isFp then fSum t md (l.map t.fmt.value)
    else (t.ofInt ((l.map t.toInt).foldl (· + ·) 0), 0)) s)

/-- The extreme of a set: `f` on FP images, `g` on integers. -/
def extreme (t : ElemType) (f : Nat → Nat → Nat) (g : Int → Int → Int) (l : List Nat) : Nat :=
  if t.isFp then l.foldl f t.fmt.canonNaN
  else match l.map t.toInt with
    | [] => 0
    | x :: xs => t.ofInt (xs.foldl g x)

/-- VREDMAX (09 R228). -/
def execVredmax (st : StallCode) (d a b : VReg) (m : MReg) (t : ElemType) (s : State) :
    Host.Outcome State Fault Refusal :=
  .next (vecRed (.vredmax st d a b m t) st d a b m t (fun _ l => (extreme t (fMax t) max l, 0)) s)

/-- VREDMIN (09 R228). -/
def execVredmin (st : StallCode) (d a b : VReg) (m : MReg) (t : ElemType) (s : State) :
    Host.Outcome State Fault Refusal :=
  .next (vecRed (.vredmin st d a b m t) st d a b m t (fun _ l => (extreme t (fMin t) min l, 0)) s)

/-- VDOT4 (09 R233): groups of four products added to an accumulator of four times the width. -/
def execVdot4 (st : StallCode) (d a b : VReg) (m : MReg) (t : ElemType) (s : State) :
    Host.Outcome State Fault Refusal :=
  .next (vecInstr (.vdot4 st d a b m t) st d [a, b] [m] [] true (some 6) (fun s =>
    let w := t.width
    let wd := 4 * w
    let acc (g : Nat) : Nat := elem (s.readV d) wd g
    let prod (k : Nat) : Int :=
      t.toInt (elem (s.readV a) w k) * t.toInt (elem (s.readV b) w k)
    mapLanes wd (lanes wd) (s.readM m) (fun g =>
      ((((acc g : Int) + prod (4 * g) + prod (4 * g + 1) + prod (4 * g + 2) + prod (4 * g + 3)) %
        (2 ^ wd : Nat)).toNat, 0)) acc) s)

/-! ### Queue-fed reduction (09 R229–R232) -/

/-- TVAL of CHANFAULT (14 R356). -/
def chanTval (deferred : Bool) (code ch : Nat) (w : BitVec 32) : Word :=
  (if deferred then 1#1 else 0#1) ++ BitVec.ofNat 7 code ++ 0#21 ++ BitVec.ofNat 3 ch ++ w

/-- A receive channel of the tile in focus. -/
def State.channel (s : State) (ch : Nat) : Channel := vget s.tile.channels ch Channel.closed

def State.setChannel (s : State) (ch : Nat) (c : Channel) : State :=
  s.onTile fun t => { t with channels := vset t.channels ch c }

/-- One pass: the oldest message popped and added, the count decremented (09 R230). -/
def State.vredqPass (s : State) (d : VReg) (a : XReg) (ch : Nat) (m : MReg) (t : ElemType)
    (msg : Msg) : State :=
  let c := s.channel ch
  let (v, fl) := s.lanesOf d m t fun k =>
    elAdd t s.tile.fpMode (elem (s.readV d) t.width k) (elem msg.data t.width k)
  let n := s.readX a - 1
  ((((s.setChannel ch { c with entries := c.entries.drop 1 }).orFlags fl).commitVR d v).commitX a
    n).acquire

/-- VREDQ (09 R229–R231): a turn performs one pass, so that an interrupt is taken between two. With
X[a] = 0, where no pass runs, it counts as a read of V[d] and M[m] for STALLSHORT all the same
(DESIGN CHOICE, log 68). -/
def execVredq (st : StallCode) (d : VReg) (a : XReg) (c : BitVec 3) (m : MReg) (t : ElemType)
    (s : State) : Host.Outcome State Fault Refusal :=
  let w := encode (.vredq st d a c m t)
  let q : Issue := { word := w, stall := st, vector := true, side := true,
                     reads := [.x a, .m m, .v d.toNat], writes := [.v d.toNat, .x a],
                     illegal := fun s => s.tile.bound d.toNat }
  .next (s.issue q fun s =>
    if !(s.channel c.toNat).isOpen then
      s.raise ⟨.chanfault, chanTval false 1 c.toNat w, none⟩
    else if s.readX a = 0 then s.finish q
    else match (s.channel c.toNat).entries with
      | [] => s.stay 0
      | msg :: _ =>
        let s := (s.noteSide true).vredqPass d a c.toNat m t msg
        if s.readX a = 0 then s.finish q else s.stay 0)

/-! ### Mask operations (09 R234) -/

/-- M[d] := f. -/
def maskOp (i : Instr) (st : StallCode) (d : MReg) (ms : List MReg) (xs : List XReg)
    (f : State → Word) (s : State) : State :=
  let q : Issue := { word := encode i, stall := st, vector := true,
                     reads := ms.map .m ++ xs.map .x, writes := [.m d] }
  s.issue q fun s => (s.writeM d (f s) 4 st).finish q

/-- X[d] := f of a mask. -/
def maskToX (i : Instr) (st : StallCode) (d : XReg) (a : MReg) (f : Word → Word) (s : State) :
    State :=
  let q : Issue := { word := encode i, stall := st, vector := true, reads := [.m a],
                     writes := [.x d] }
  s.issue q fun s => (s.writeX d (f (s.readM a)) 4 st).finish q

/-- MAND (09 R234). -/
def execMand (st : StallCode) (d a b : MReg) (s : State) : Host.Outcome State Fault Refusal :=
  .next (maskOp (.mand st d a b) st d [a, b] [] (fun s => s.readM a &&& s.readM b) s)

/-- MOR (09 R234). -/
def execMor (st : StallCode) (d a b : MReg) (s : State) : Host.Outcome State Fault Refusal :=
  .next (maskOp (.mor st d a b) st d [a, b] [] (fun s => s.readM a ||| s.readM b) s)

/-- MXOR (09 R234). -/
def execMxor (st : StallCode) (d a b : MReg) (s : State) : Host.Outcome State Fault Refusal :=
  .next (maskOp (.mxor st d a b) st d [a, b] [] (fun s => s.readM a ^^^ s.readM b) s)

/-- MNOT (09 R234). -/
def execMnot (st : StallCode) (d a : MReg) (s : State) : Host.Outcome State Fault Refusal :=
  .next (maskOp (.mnot st d a) st d [a] [] (fun s => ~~~s.readM a) s)

/-- MCNT (09 R234). -/
def execMcnt (st : StallCode) (d : XReg) (a : MReg) (s : State) :
    Host.Outcome State Fault Refusal :=
  .next (maskToX (.mcnt st d a) st d a opCpop s)

/-- MFIRST (09 R234). -/
def execMfirst (st : StallCode) (d : XReg) (a : MReg) (s : State) :
    Host.Outcome State Fault Refusal :=
  .next (maskToX (.mfirst st d a) st d a opCtz s)

/-- MSET (09 R234). -/
def execMset (st : StallCode) (d : MReg) (a : XReg) (s : State) :
    Host.Outcome State Fault Refusal :=
  .next (maskOp (.mset st d a) st d [] [a] (·.readX a) s)

/-- MGET (09 R234). -/
def execMget (st : StallCode) (d : XReg) (a : MReg) (s : State) :
    Host.Outcome State Fault Refusal :=
  .next (maskToX (.mget st d a) st d a id s)

/-- VREDQ_PASS: the VREDQ at which the execute hart of a tile stands performs a pass, where no
interrupt is due (09 R230, R231). -/
def execVredqPass (s : State) : Host.Outcome State Fault Refusal :=
  .next (s.atTile s.arg.tile fun s =>
    if s.tile.run ≠ .running || !s.tile.deferred.isEmpty || (s.tile.dueInterrupt s.gtc).isSome then s
    else match s.fetchWord s.tile.eh.pc with
      | .error _ => s
      | .ok w =>
        match decodeWord w with
        | .ok (.vredq st d a c m t) =>
          (match execVredq st d a c m t { s with who := .eh } with
           | .next s' => { s' with who := s.who }
           | .fault _ | .refused _ => s)
        | .ok _ | .error _ => s)

end Sys2Proof.Machine
end

