-- ==== Sys2Proof/Machine/Convert.lean ====
section
/-! DEFINITION. Conversions and format instructions (05 R104–R110). -/
namespace Sys2Proof.Machine

/-- VCVT (05 R104). -/
def execVcvt (st : StallCode) (d a : VReg) (e : ElemType) (m : MReg) (t : ElemType) (s : State) :
    Host.Outcome State Fault Refusal :=
  .next (vecUn (.vcvt st d a e m t) st d a m t (some 6) (fun md x => cvt e t md x) s)

/-- VCVTN (05 R104): the results are packed, and the bits above them are zero. -/
def execVcvtn (st : StallCode) (d a : VReg) (e : ElemType) (m : MReg) (t : ElemType) (s : State) :
    Host.Outcome State Fault Refusal :=
  .next (vecInstr (.vcvtn st d a e m t) st d [a] [m] [] (!s.full m t) (some 6) (fun s =>
    let n := lanes t.width
    let on := enabled (s.readM m) t.width
    let r (k : Nat) : Nat × FpFlags := cvt e t s.tile.fpMode (elem (s.readV a) t.width k)
    (pack e.width n fun k => if on k then (r k).1 else elem (s.readV d) e.width k,
     (List.range n).foldl (fun fl k => if on k then fl ||| (r k).2 else fl) 0)) s)

/-- VCVTWL and VCVTWH (05 R106): `h` selects the half of the source. -/
def vecWiden (i : Instr) (st : StallCode) (d a : VReg) (t : ElemType) (m : MReg) (h : Nat)
    (s : State) : State :=
  let e := t.widened.getD t
  vecInstr i st d [a] [m] [] (!s.full m e) (some 4) (fun s =>
    let n := lanes e.width
    s.lanesOf d m e fun k => cvt e t s.tile.fpMode (elem (s.readV a) t.width (n * h + k))) s

/-- VCVTWL (05 R106). -/
def execVcvtwl (st : StallCode) (d a : VReg) (t : ElemType) (m : MReg) (s : State) :
    Host.Outcome State Fault Refusal :=
  .next (vecWiden (.vcvtwl st d a t m) st d a t m 0 s)

/-- VCVTWH (05 R106). -/
def execVcvtwh (st : StallCode) (d a : VReg) (t : ElemType) (m : MReg) (s : State) :
    Host.Outcome State Fault Refusal :=
  .next (vecWiden (.vcvtwh st d a t m) st d a t m 1 s)

/-- Bit 64ℓ + k of the planes of the bytes `v` (05 R108). -/
def planes (v : Vec) : Vec :=
  pack 1 512 fun j => if bitAt v (8 * (j % 64) + 7 - j / 64) then 1 else 0

/-- The bytes whose planes are the words of `v` (05 R108). -/
def unplanes (v : Vec) : Vec :=
  pack 1 512 fun j => if bitAt v (64 * (7 - j % 8) + j / 8) then 1 else 0

/-- VPLANE (05 R108). -/
def execVplane (st : StallCode) (d a : VReg) (s : State) : Host.Outcome State Fault Refusal :=
  .next (vecInstr (.vplane st d a) st d [a] [] [] false (some 4)
    (fun s => (planes (s.readV a), 0)) s)

/-- VUNPLANE (05 R108). -/
def execVunplane (st : StallCode) (d a : VReg) (s : State) : Host.Outcome State Fault Refusal :=
  .next (vecInstr (.vunplane st d a) st d [a] [] [] false (some 4)
    (fun s => (unplanes (s.readV a), 0)) s)

/-- VSCALEB (05 R108): the exponents are signed integers of the element's width. -/
def execVscaleb (st : StallCode) (d a b : VReg) (t : ElemType) (s : State) :
    Host.Outcome State Fault Refusal :=
  .next (vecInstr (.vscaleb st d a b t) st d [a, b] [] [] false (some 6) (fun s =>
    s.lanesOf d 0 t fun k =>
      let n := elem (s.readV b) t.width k
      fScale t s.tile.fpMode (elem (s.readV a) t.width k)
        (if n < signBit t then n else (n : Int) - (2 ^ t.width : Nat))) s)

/-- VCLASS (05 R108). -/
def execVclass (st : StallCode) (d a : VReg) (t : ElemType) (s : State) :
    Host.Outcome State Fault Refusal :=
  .next (vecInstr (.vclass st d a t) st d [a] [] [] false (some 4) (fun s =>
    (packElems t fun k => fClass t (elem (s.readV a) t.width k), 0)) s)

end Sys2Proof.Machine
end

