-- ==== Sys2Proof/Machine/Matrix.lean ====
section
/-! DEFINITION. The matrix array (10): configuration, MMA and MMAG, draining and scaling,
tile-register moves, and gang issue. Instructions complete when they issue, in program order
(10 R242). -/
namespace Sys2Proof.Machine

/-! ### Configuration (10 R238, R240, R245) -/

/-- The plane count of a BP operand (10 R238). -/
def planesOf (mx : Word) : Nat := 2 ^ (slice mx 15 2).toNat

/-- SMODE (10 R238). -/
def smode (mx : Word) : Nat := (slice mx 13 2).toNat

def typeA (mx : Word) : ElemType := (ElemType.ofCode (slice mx 0 4)).getD .bp
def typeB (mx : Word) : ElemType := (ElemType.ofCode (slice mx 4 4)).getD .bp
def typeO (mx : Word) : ElemType := (ElemType.ofCode (slice mx 8 4)).getD .f32

/-- The pairs of operand types that the array accepts (10 R240). -/
def pairOk (a b : ElemType) : Bool :=
  match a, b with
  | .f32, .f32 | .bf16, .bf16 | .f16, .f16 | .bp, .bp => true
  | .e4m3, .e4m3 | .e4m3, .e5m2 | .e5m2, .e4m3 | .e5m2, .e5m2 => true
  | .i8, .i8 | .i8, .n8 | .n8, .i8 | .n8, .n8 => true
  | _, _ => false

/-- MCFG accepts a value (10 R245). -/
def mcfgOk (v : Word) : Bool :=
  decide (slice v 18 46 = 0) && !bitAt v 12 &&
    (match ElemType.ofCode (slice v 0 4), ElemType.ofCode (slice v 4 4) with
     | some a, some b => pairOk a b
     | _, _ => false) &&
    decide ((slice v 8 4).toNat ≤ 12) && smode v != 3 && decide (slice v 15 2 ≠ 0)

/-- The accumulators hold F32 (10 R240). -/
def fpClass (mx : Word) : Bool :=
  match typeA mx with
  | .f32 | .bf16 | .f16 | .e4m3 | .e5m2 => true
  | .i8 | .i16 | .i32 | .i64 | .n8 | .n16 | .n32 | .n64 | .e2m1 | .bp => false

/-- The k-steps of one row of `colb` bytes (10 R240, R241). -/
def kSteps (mx : Word) (t : ElemType) (colb : Nat) : Nat :=
  match t with
  | .bp => 512 / planesOf mx
  | _ => colb / (t.width / 8)

/-! ### Accumulation chains (10 R241, R247, R248) -/

/-- Element k of a row as an integer (10 R241). -/
def rowInt (mx : Word) (t : ElemType) (row : Vec) (k : Nat) : Int :=
  match t with
  | .bp =>
    let p := planesOf mx
    let n := 512 / p
    let u := (List.range p).foldl (fun u l => 2 * u + (if bitAt row (l * n + k) then 1 else 0)) 0
    let v : Int := if u < 2 ^ (p - 1) then u else (u : Int) - (2 ^ p : Nat)
    if bitAt mx 17 then 2 * v + 1 else v
  | _ => t.toInt (elem row t.width k)

/-- Rounding to nearest, as the array does it (10 R247). -/
def arrayMode : FpMode := ⟨.rne, false⟩

/-- The sum of one group of products (10 R247). -/
def groupSum (ops : List (FVal × FVal)) : Nat × FpFlags :=
  if ops.any fun p => p.1.isNaN || p.2.isNaN then (ElemType.f32.fmt.canonNaN, 0)
  else
    let prods := ops.map fun p => p.1.mul p.2
    if prods.any fun p => p.2 == flagNV then (ElemType.f32.fmt.canonNaN, flagNV)
    else fSum .f32 arrayMode (prods.map (·.1))

/-- Chain of the FP class: groups of up to 16 k-steps (10 R247). -/
def chainFp (ta tb : ElemType) (a b : Vec) (k : Nat) (c : Nat) : Nat × FpFlags :=
  (List.range ((k + 15) / 16)).foldl (fun (p : Nat × FpFlags) g =>
    let ops := (List.range (min 16 (k - 16 * g))).map fun j =>
      (ta.fmt.value (elem a ta.width (16 * g + j)), tb.fmt.value (elem b tb.width (16 * g + j)))
    let (sum, f₁) := groupSum ops
    let (r, f₂) := fAdd .f32 arrayMode p.1 sum
    (r, p.2 ||| f₁ ||| f₂)) (c, 0)

/-- Chain of the INT class, and whether the sum left the range of I32 (10 R248). -/
def chainInt (mx : Word) (ta tb : ElemType) (a b : Vec) (k : Nat) (c : Nat) : Nat × Bool :=
  let s := (List.range k).foldl (fun (s : Int) j => s + rowInt mx ta a j * rowInt mx tb b j)
    (ElemType.i32.toInt c)
  (ElemType.i32.ofInt s, decide (s < -(2 ^ 31 : Nat) ∨ ((2 ^ 31 : Nat) : Int) ≤ s))

/-! ### Banks and tile registers -/

def Tile.bankRow (t : Tile) (b i : Nat) : Vector Word32 64 :=
  vget (vget t.acc b (Vector.replicate 64 (Vector.replicate 64 0))) i (Vector.replicate 64 0)

def Tile.setBankRow (t : Tile) (b i : Nat) (r : Vector Word32 64) : Tile :=
  let bank := vget t.acc b (Vector.replicate 64 (Vector.replicate 64 0))
  { t with acc := vset t.acc b (vset bank i r) }

def Tile.tileRow (t : Tile) (k : TReg) (i : Nat) : Vec :=
  vget (vget t.t k.toNat (Vector.replicate 64 0)) i 0

def Tile.setTileRow (t : Tile) (k : TReg) (i : Nat) (v : Vec) : Tile :=
  let rows := vget t.t k.toNat (Vector.replicate 64 0)
  { t with t := vset t.t k.toNat (vset rows i v) }

/-- The low `n` bytes of `v` laid over `old`. -/
def lowBytes (old v : Vec) (n : Nat) : Vec :=
  (old >>> (8 * n)) <<< (8 * n) ||| BitVec.ofNat 512 (v.toNat % 2 ^ (8 * n))

def Tile.ksOf (t : Tile) (b i : Nat) : Nat := vget (vget t.ks b (Vector.replicate 64 0)) i 0

def Tile.setKs (t : Tile) (b i n : Nat) : Tile :=
  let rows := vget t.ks b (Vector.replicate 64 0)
  { t with ks := vset t.ks b (vset rows i n) }

/-- Row i of bank b accumulates the products of row `a` with the rows of tb (10 R246). -/
def Tile.accRow (t : Tile) (b i : Nat) (a : Vec) (tb : TReg) (k : Nat) : Tile :=
  let mx := t.cr.mxcfg
  let n := t.rows tb
  let r := t.bankRow b i
  let fp := fpClass mx
  let out : List (Nat × FpFlags × Bool) := (List.range n).map fun j =>
    let c := (vget r j 0).toNat
    if fp then
      let (v, f) := chainFp (typeA mx) (typeB mx) a (t.tileRow tb j) k c
      (v, f, false)
    else
      let (v, o) := chainInt mx (typeA mx) (typeB mx) a (t.tileRow tb j) k c
      (v, 0, o)
  let r := out.zipIdx.foldl (fun r p => vset r p.2 (BitVec.ofNat 32 p.1.1)) r
  let t := (t.setBankRow b i r).orMstat (out.any (·.2.2))
    (out.foldl (fun f p => f ||| p.2.1) 0)
  t.setKs b i (min (t.ksOf b i + k) 128)

/-- The checks that MMA and MMAG share (10 R246, R249): codes 3 and 1, and the k-steps. -/
def Tile.mmaCheck (t : Tile) (ta tb : TReg) : Except Nat Nat :=
  let mx := t.cr.mxcfg
  let k := kSteps mx (typeA mx) (t.colb ta)
  if typeA mx = .bp ∧ (t.colb ta ≠ 64 ∨ t.colb tb ≠ 64) then .error 3
  else if kSteps mx (typeB mx) (t.colb tb) ≠ k then .error 1
  else .ok k

/-- MMA on one tile; `lead` holds the rows of ta (10 R246, R261). How many rows there are, and K,
follow from the tile's own SHAPE of ta and MXCFG: 10 R261 gives only that each member checks its own
shapes (DESIGN CHOICE, log 65). -/
def Tile.mma (t lead : Tile) (b : Nat) (ta tb : TReg) : Except Nat Tile :=
  match t.mmaCheck ta tb with
  | .error c => .error c
  | .ok k =>
    let m := t.rows ta
    if smode t.cr.mxcfg = 2 ∧ (List.range m).any (fun i => decide (128 < t.ksOf b i + k)) then
      .error 5
    else .ok ((List.range m).foldl (fun t' i => t'.accRow b i (lead.tileRow ta i) tb k) t)

/-- The live entries of an MMAG: gather and scatter index (10 R249). -/
def liveEntries (g z : Vec) : List (Nat × Nat) :=
  ((List.range 64).map fun e => (elem g 8 e, elem z 8 e)).filter fun p =>
    decide (p.1 < 128) && decide (p.2 < 128)

/-- MMAG (10 R249). -/
def Tile.mmag (t : Tile) (b : Nat) (ta tb : TReg) (g z : Vec) : Except Nat Tile :=
  match t.mmaCheck ta tb with
  | .error c => .error c
  | .ok k =>
    let live := liveEntries g z
    if live.any fun p => decide (t.rows ta ≤ p.1 ∨ 64 ≤ p.2) then .error 4
    else if smode t.cr.mxcfg = 2 ∧ (List.range 64).any (fun i =>
        let n := (live.filter (·.2 == i)).length
        decide (0 < n ∧ 128 < t.ksOf b i + k * n)) then .error 5
    else .ok (live.foldl (fun t' p => t'.accRow b p.2 (t.tileRow ta p.1) tb k) t)

/-- An item that has been written whole holds no error. -/
def Tile.renewed (t : Tile) (item : Nat) : Tile := { t with unsound := removeNat t.unsound item }

/-- MZERO on one tile (10 R250). -/
def Tile.mzero (t : Tile) (b : Nat) : Tile :=
  let zero : Vector (Vector Word32 64) 64 := Vector.replicate 64 (Vector.replicate 64 0)
  { t with acc := vset t.acc b zero, ks := vset t.ks b (Vector.replicate 64 0) }.renewed (8 + b)

/-- Conv of one element of a bank (10 R251): its image in OTYPE. An INT-class value that goes to an
integer type saturates without a flag with SMODE 0 only. -/
def Tile.drainElem (t : Tile) (x i j : Nat) : Nat × FpFlags :=
  let mx := t.cr.mxcfg
  let o := typeO mx
  let src : ElemType := if fpClass mx then .f32 else .i32
  if smode mx = 1 then
    let (p, f₁) := (src.value x).mul (ElemType.f32.fmt.value (vget t.rs i 0).toNat)
    let (y, f₂) := p.mul (ElemType.f32.fmt.value (vget t.cs j 0).toNat)
    let (v, f₃) := convVal o t.fpMode y
    (v, f₁ ||| f₂ ||| f₃)
  else if smode mx = 0 ∨ fpClass mx ∨ o.isFp then cvt o src t.fpMode x
  else convVal o t.fpMode (src.value x)

/-- MDRAIN on one tile (10 R251). -/
def Tile.mdrain (t : Tile) (b : Nat) (td : TReg) (z : Bool) : Tile :=
  let o := typeO t.cr.mxcfg
  let w := o.width
  let cols := t.colb td / (w / 8)
  (List.range (t.rows td)).foldl (fun t' i =>
    let r := t.bankRow b i
    let out := (List.range cols).map fun j => t.drainElem (vget r j 0).toNat i j
    let image := pack w cols fun j => (out.getD j (0, 0)).1
    let t' := t'.setTileRow td i (lowBytes (t'.tileRow td i) image (cols * (w / 8)))
    let t' := t'.orFp (out.foldl (fun f p => f ||| p.2) 0)
    if z then t'.setBankRow b i ((List.range cols).foldl (fun r j => vset r j 0) r) else t') t

/-! ### Gang issue (10 R260–R262) -/

/-- Tile of position `p` in the row of the tile in focus. -/
def State.rowTile (s : State) (p : Nat) : Nat := s.cur / 8 * 8 + p

/-- TVAL of SHAPEERR and GANGERR (10 R259, R262). -/
def shapeTval (w : Word32) (code : Nat) : Word := 0#28 ++ BitVec.ofNat 4 code ++ w

/-- The positions of a member mask. -/
def maskMembers (m : BitVec 8) : List Nat := (List.range 8).filter (bitAt m)

/-- The members at which a window of the row stands open (10 R261). -/
def State.windowMembers (s : State) (w : GangWindow) : List Nat :=
  (maskMembers w.mask).filter fun p => (s.getTile (s.rowTile p)).window.any fun x =>
    x.mask == w.mask && x.lead == w.lead

/-- The window closes at all its members (10 R261). -/
def State.closeWindow (s : State) (w : GangWindow) : State :=
  (s.windowMembers w).foldl (fun s p =>
    s.modTile (s.rowTile p) fun t => { t with window := none }) s

/-- A matrix instruction that does not enter a gang window (10 R261): a member waits, and the
leader traps and closes its window. -/
def matrixOp (q : Issue) (body : State → State) (s : State) : State :=
  s.issue { q with vector := true } fun s =>
    match s.tile.window with
    | none => body s
    | some w =>
      if w.lead ≠ s.cur % 8 then s.stay 0
      else (s.closeWindow w).raise ⟨.gangerr, shapeTval q.word 5, none⟩

/-- The tile effect of MMA, MZERO and MDRAIN on the tile in focus, or, in an open window of which
it is the leader, on every member (10 R261). `busy` names tile registers whose pending loads are
waited for; `items` are the matrix-side items that it reads at a member, and `lead` those at the
leader. -/
def gangOp (q : Issue) (busy : List TReg) (items : Tile → List Nat) (lead : List Nat)
    (f : Tile → Tile → Except Nat Tile) (s : State) : State :=
  s.issue { q with vector := true } fun s =>
    match s.tile.window with
    | none =>
      (match f s.tile s.tile with
       | .error c => s.raise ⟨.shapeerr, shapeTval q.word c, none⟩
       | .ok t =>
         if (lead ++ items s.tile).any s.tile.unsound.contains then s.matrixError q s.cur
         else ({ s with tile := t }).finish q)
    | some w =>
      if w.lead ≠ s.cur % 8 then s.stay 0
      else
        let ms := s.windowMembers w
        if ms.any fun p => busy.any fun k =>
            (s.getTile (s.rowTile p)).reqs.any (·.dest.writesT k.toNat) then s.stay 0
        else match ms.findSome? fun p => (match f (s.getTile (s.rowTile p)) s.tile with
            | .error c => some (p, c)
            | .ok _ => none) with
          | some (p, c) =>
            let tval : Word := 0#20 ++ BitVec.ofNat 4 c ++ 0#1 ++ BitVec.ofNat 3 p ++ 6#4 ++ q.word
            (s.closeWindow w).raise ⟨.gangerr, tval, none⟩
          | none =>
            let tl := s.tile
            let w' : Option GangWindow :=
              if w.count ≤ 1 then none else some { w with count := w.count - 1 }
            match ms.find? fun p =>
                (items (s.getTile (s.rowTile p))).any (s.getTile (s.rowTile p)).unsound.contains ||
                  (p == w.lead && lead.any tl.unsound.contains) with
            | some p =>
              (ms.foldl (fun s p => s.modTile (s.rowTile p) fun t => { t with window := w' })
                s).matrixError q (s.rowTile p)
            | none =>
              (ms.foldl (fun s p => s.modTile (s.rowTile p) fun t =>
                match f t tl with
                | .ok t => { t with window := w' }
                | .error _ => t) s).finish q

/-- The arrivals that stand of the members of a mask in the row, by position. -/
def State.arrivals (s : State) (m : BitVec 8) : List (Nat × GangArrival) :=
  (maskMembers m).filterMap fun p => match (s.getTile (s.rowTile p)).arrival with
    | some a => if a.opened then none else some (p, a)
    | none => none

/-- The masks of the arrivals that stand and name position `p`, and `m` (10 R260). -/
def State.jointMask (s : State) (p : Nat) (m : BitVec 8) : BitVec 8 :=
  (s.arrivals (BitVec.allOnes 8)).foldl (fun m a =>
    let x : BitVec 8 := slice a.2.word 0 8
    if bitAt x p then m ||| x else m) m

/-- Every member that has arrived traps GANGERR, and its arrival ends (10 R260). -/
def State.gangTrap (s : State) (m : BitVec 8) (code : Nat) : State :=
  (s.arrivals m).foldl (fun s p => s.atTile (s.rowTile p.1) fun s =>
    let t := s.tile
    let s := { s with tile := { t with arrival := none } }
    s.enterTrap false Cause.gangerr.code (shapeTval p.2.instr code) t.eh.pc
      (t.trapLevel Cause.gangerr.code)) s

/-- Every member belongs to the leader's group, which is placed in the row with the joint array
(10 R260); a window of one tile needs neither (10 R265). -/
def State.gangPlaced (s : State) (m : BitVec 8) (lead : Nat) : Bool :=
  maskMembers m == [lead] ||
    match (s.getTile (s.rowTile lead)).place with
    | none => false
    | some l => l.joint && (maskMembers m).all fun p =>
        match (s.getTile (s.rowTile p)).place with
        | none => false
        | some x => x.lid == l.lid && x.gang == l.gang && x.group == l.group

/-- MGANG (10 R260): it arrives and waits; the window opens by a step of its own. One that the
leader executes while its own window is open arrives anew, and does not count in that window: 10
R261 names neither a trap nor an effect (DESIGN CHOICE, log 66). -/
def execMgang (st : StallCode) (a : XReg) (s : State) : Host.Outcome State Fault Refusal :=
  let w := encode (.mgang st a)
  let q : Issue := { word := w, stall := st, vector := true, reads := [.x a] }
  .next (s.issue q fun s =>
    match s.tile.arrival with
    | some g => if g.opened then (s.onTile fun t => { t with arrival := none }).finish q else s.stay 0
    | none =>
      let v := s.readX a
      let mask := slice v 0 8
      let lead := (slice v 8 3).toNat
      let mine := s.cur % 8
      if s.tile.window.any fun g => g.lead != mine then s.stay 0
      else if !bitAt mask mine || !bitAt mask lead || bitAt v 11 then
        s.raise ⟨.gangerr, shapeTval w 1, none⟩
      else
        let word : Word := (slice v 0 20).setWidth 64
        let all := s.jointMask mine mask
        if (s.arrivals all).any fun p => p.2.word != word &&
            (bitAt mask p.1 || bitAt p.2.word mine) then
          (s.gangTrap all 2).raise ⟨.gangerr, shapeTval w 2, none⟩
        else
          (s.onTile fun t => { t with arrival := some ⟨word, s.cc, w, false⟩ }).stay 0)

/-- GANG_WINDOW_OPEN: every member has arrived with one value (10 R260). `tile` is a member. A
window of one tile leaves no trace: its instructions act as if they stood alone (10 R265). -/
def execGangWindowOpen (s : State) : Host.Outcome State Fault Refusal :=
  .next (s.atTile s.arg.tile fun s =>
    match s.tile.arrival with
    | none => s
    | some g =>
      let mask := slice g.word 0 8
      let lead := (slice g.word 8 3).toNat
      let arr := s.arrivals mask
      if g.opened || arr.length < (maskMembers mask).length then s
      else if !s.gangPlaced mask lead then s.gangTrap mask 4
      else
        let win : Option GangWindow :=
          if maskMembers mask = [lead] then none
          else some ⟨mask, lead, (slice g.word 12 8).toNat + 1⟩
        (maskMembers mask).foldl (fun s p => s.modTile (s.rowTile p) fun t => { t with
          window := win
          arrival := t.arrival.map fun x => { x with opened := true } }) s)

/-- MGANG_TIMEOUT: a member has not arrived 65,536 cc after the earliest arrival that stands
(10 R260). -/
def execMgangTimeout (s : State) : Host.Outcome State Fault Refusal :=
  .next (s.atTile s.arg.tile fun s =>
    match s.tile.arrival with
    | none => s
    | some g =>
      let mask := slice g.word 0 8
      let arr := s.arrivals mask
      if arr.length < (maskMembers mask).length && !g.opened &&
          arr.any fun p => decide (p.2.at_ + 65536 ≤ s.cc) then s.gangTrap mask 3
      else s)

/-! ### The instructions -/

/-- SETSHAPE: the request is granted as clamped (10 R244). -/
def execSetshape (st : StallCode) (d a : XReg) (k : BitVec 3) (s : State) :
    Host.Outcome State Fault Refusal :=
  let q : Issue := { word := encode (.setshape st d a k), stall := st, reads := [.x a],
                     writes := [.x d, .t k] }
  .next (matrixOp q (fun s =>
    let v := s.readX a
    let rows := min (max (slice v 0 7).toNat 1) 64
    let colb := min (max (8 * (((slice v 8 7).toNat + 7) / 8)) 8) 64
    let shape : Word := BitVec.ofNat 64 (colb * 256 + rows)
    ((s.onTile fun t => { t with cr := { t.cr with shape := vset t.cr.shape k.toNat shape } }).commitX
      d shape).finish q) s)

/-- MMA (10 R246). -/
def execMma (st : StallCode) (b : BitVec 2) (a c : BitVec 3) (s : State) :
    Host.Outcome State Fault Refusal :=
  let q : Issue := { word := encode (.mma st b a c), stall := st, reads := [.t a, .t c, .acc b],
                     writes := [.acc b] }
  .next (gangOp q [c] (fun _ => [c.toNat, 8 + b.toNat]) [a.toNat]
    (fun t lead => t.mma lead b.toNat a c) s)

/-- MMAG (10 R249): the index pair is read at issue. -/
def execMmag (st : StallCode) (b : BitVec 2) (a c : BitVec 3) (v : VReg) (s : State) :
    Host.Outcome State Fault Refusal :=
  let q : Issue := { word := encode (.mmag st b a c v), stall := st,
                     reads := [.t a, .t c, .acc b, .v v.toNat, .v (v.toNat + 1)],
                     writes := [.acc b],
                     illegal := fun s => s.tile.bound v.toNat || s.tile.bound (v.toNat + 1) }
  .next (matrixOp q (fun s =>
    match s.tile.mmag b.toNat a c (s.readVReg v.toNat) (s.readVReg (v.toNat + 1)) with
    | .error e => s.raise ⟨.shapeerr, shapeTval q.word e, none⟩
    | .ok t => s.matrixDone q { s with tile := t }) s)

/-- MDRAIN (10 R251). -/
def execMdrain (st : StallCode) (b : BitVec 2) (t : BitVec 3) (z : BitVec 1) (s : State) :
    Host.Outcome State Fault Refusal :=
  let q : Issue := { word := encode (.mdrain st b t z), stall := st, reads := [.acc b],
                     writes := [.t t, .acc b] }
  .next (gangOp q [t]
    (fun tl => (8 + b.toNat) :: (if smode tl.cr.mxcfg = 1 then [12, 13] else [])) []
    (fun tl _ => .ok (tl.mdrain b.toNat t (z == 1))) s)

/-- MZERO (10 R250). -/
def execMzero (st : StallCode) (b : BitVec 2) (s : State) : Host.Outcome State Fault Refusal :=
  let q : Issue := { word := encode (.mzero st b), stall := st, writes := [.acc b] }
  .next (gangOp q [] (fun _ => []) [] (fun t _ => .ok (t.mzero b.toNat)) s)

/-- MPSUM (10 R253): one row as partial sums into four v registers; `q` is bit 5 of the row. -/
def execMpsum (st : StallCode) (d : VReg) (b : BitVec 2) (r : BitVec 5) (q : BitVec 1)
    (s : State) : Host.Outcome State Fault Refusal :=
  let k := d.toNat
  let i : Issue := { word := encode (.mpsum st d b r q), stall := st, reads := [.acc b],
                     writes := [.v k, .v (k + 1), .v (k + 2), .v (k + 3), .acc b],
                     illegal := fun s => (List.range 4).any fun j => s.tile.bound (k + j) }
  .next (matrixOp i (fun s =>
    let row := 32 * q.toNat + r.toNat
    let mx := s.tile.cr.mxcfg
    if smode mx ≠ 2 ∨ fpClass mx then s.raise ⟨.shapeerr, shapeTval i.word 9, none⟩
    else
      let data := s.tile.bankRow b.toNat row
      let replay := s.who == UnitId.vs
      let image (n : Nat) : Vec := pack 32 16 fun e => (vget data (16 * n + e) 0).toNat
      s.matrixDone i (s.onTile fun t =>
        let t := (List.range 4).foldl (fun t n => t.commitV replay (k + n) (image n)) t
        (t.setBankRow b.toNat row (Vector.replicate 64 0)).setKs b.toNat row 0)) s)

/-- MCFG (10 R245). -/
def execMcfg (st : StallCode) (a : XReg) (s : State) : Host.Outcome State Fault Refusal :=
  let q : Issue := { word := encode (.mcfg st a), stall := st, reads := [.x a] }
  .next (matrixOp q (fun s =>
    let v := s.readX a
    if mcfgOk v then
      (s.onTile fun t => { t with cr := { t.cr with mxcfg := v } }).finish q
    else s.raise ⟨.shapeerr, shapeTval q.word 2, none⟩) s)

/-- MSCALE (10 R252): `c` 0 for RS, 1 for CS. -/
def execMscale (st : StallCode) (c : BitVec 1) (k : BitVec 3) (s : State) :
    Host.Outcome State Fault Refusal :=
  let q : Issue := { word := encode (.mscale st c k), stall := st, reads := [.t k] }
  .next (matrixOp q (fun s =>
    if s.tile.rows k < 4 ∨ s.tile.colb k < 64 then
      s.raise ⟨.shapeerr, shapeTval q.word 8, none⟩
    else
      let v : Vector Word32 64 := Vector.ofFn fun i =>
        slice (s.tile.tileRow k (i.val / 16)) (32 * (i.val % 16)) 32
      s.matrixDone q (s.onTile fun t =>
        if c = 0 then { t with rs := v }.renewed 12 else { t with cs := v }.renewed 13)) s)

/-- TMOV (10 R254). -/
def execTmov (st : StallCode) (d a : BitVec 3) (s : State) : Host.Outcome State Fault Refusal :=
  let q : Issue := { word := encode (.tmov st d a), stall := st, reads := [.t a], writes := [.t d] }
  .next (matrixOp q (fun s =>
    let t := s.tile
    if t.rows d < t.rows a ∨ t.colb d < t.colb a then
      s.raise ⟨.shapeerr, shapeTval q.word 6, none⟩
    else
      let t' := (List.range (t.rows a)).foldl (fun t' i =>
        t'.setTileRow d i (lowBytes (t'.tileRow d i) (t.tileRow a i) (t.colb a))) t
      s.matrixDone q { s with tile := t' }) s)

/-- TMOVV (10 R255): `r` is DIR. -/
def execTmovv (st : StallCode) (v : VReg) (r : BitVec 1) (k : BitVec 3) (x : XReg) (s : State) :
    Host.Outcome State Fault Refusal :=
  let q : Issue := { word := encode (.tmovv st v r k x), stall := st,
                     reads := [.x x, if r = 0 then .t k else .v v.toNat],
                     writes := if r = 0 then [.v v.toNat] else [.t k] }
  .next (matrixOp q (fun s =>
    let i := (s.readX x).toNat
    if s.tile.rows k ≤ i then s.raise ⟨.shapeerr, shapeTval q.word 7, none⟩
    else match s.queueWait (if r = 0 then [] else [v]) (if r = 0 then [v] else []) with
      | some n => s.stay n
      | none =>
        let n := s.tile.colb k
        let side := s.tile.usesQueue [v]
        s.matrixDone { q with side := side }
          (if r = 0 then s.commitVR v (lowBytes 0 (s.tile.tileRow k i) n)
          else
            let data := s.readV v
            (s.popAll [v]).onTile fun t =>
              t.setTileRow k i (lowBytes (t.tileRow k i) data n))) s)

/-- TTRANS (10 R256). -/
def execTtrans (st : StallCode) (d : BitVec 3) (z : BitVec 2) (a : BitVec 3) (s : State) :
    Host.Outcome State Fault Refusal :=
  let q : Issue := { word := encode (.ttrans st d z a), stall := st, reads := [.t a],
                     writes := [.t d] }
  .next (matrixOp q (fun s =>
    let t := s.tile
    let w := 2 ^ z.toNat
    let m := t.rows a
    let n := t.colb a / w
    if t.rows d < n ∨ t.colb d < m * w then s.raise ⟨.shapeerr, shapeTval q.word 6, none⟩
    else
      let t' := (List.range n).foldl (fun t' j =>
        let image := pack (8 * w) m fun i => elem (t.tileRow a i) (8 * w) j
        t'.setTileRow d j (lowBytes (t'.tileRow d j) image (m * w))) t
      s.matrixDone q { s with tile := t' }) s)

/-- MSTATR (10 R258). -/
def execMstatr (st : StallCode) (d a : XReg) (s : State) : Host.Outcome State Fault Refusal :=
  let q : Issue := { word := encode (.mstatr st d a), stall := st, reads := [.x a],
                     writes := [.x d] }
  .next (matrixOp q (fun s =>
    let old := s.tile.cr.mstat
    let clear : Word := (slice (s.readX a) 0 6).setWidth 64
    ((s.onTile fun t => { t with cr := { t.cr with mstat := old &&& ~~~clear } }).commitX d
      old).finish q) s)

/-- TCLR (10 R257). -/
def execTclr (st : StallCode) (k : BitVec 3) (s : State) : Host.Outcome State Fault Refusal :=
  let q : Issue := { word := encode (.tclr st k), stall := st, writes := [.t k] }
  .next (matrixOp q (fun s =>
    (s.onTile fun t =>
      { t with t := vset t.t k.toNat (Vector.replicate 64 0) }.renewed k.toNat).finish q) s)

end Sys2Proof.Machine
end

