-- ==== Sys2Proof/Machine/Engine.lean ====
section
/-! DEFINITION. Engine commands and the inbox (11): acceptance, the copy engine, ring rotation,
collectives, completion records, and the return from a user-level handler. -/
namespace Sys2Proof.Machine

/-! ### Acceptance (11 R266–R268) -/

/-- The commands of a tile on one engine, oldest first. -/
def Tile.onEngine (t : Tile) (e : Nat) : List Command := t.cmds.filter (·.engine == e)

/-- INBCTL.NEXTSEQ (11 R272). -/
def Tile.nextSeq (t : Tile) : Nat := (slice t.cr.inbctl 16 16).toNat

/-- A command as it is accepted. -/
def Command.new (engine kind seq ctx level since : Nat) (tag ctl : Word) (ops : List Word) :
    Command where
  engine := engine
  kind := kind
  seq := seq
  tag := tag
  ctx := ctx
  level := level
  ops := ops
  ctl := ctl
  begun := false
  started := false
  pos := 0
  row := 0
  desc := []
  cursor := 0
  value := 0
  done := 0
  waiting := none
  line := 0
  arrival := 0
  buffer := []
  raised := false
  descents := []
  batches := 0
  copy := none
  since := since
  ended := none
  word2 := 0
  word3 := 0

/-- The command enters its slot, and its sequence number is taken. -/
def State.accept (s : State) (engine kind : Nat) (tag ctl : Word) (ops : List Word) : State :=
  let t := s.tile
  let c := Command.new engine kind t.nextSeq t.ctx t.level s.cc tag ctl ops
  { s with tile := { t with
      cmds := t.cmds ++ [c]
      cr := { t.cr with inbctl := setSlice t.cr.inbctl 16 16 (slice t.cr.inbctl 16 16 + 1) } } }

/-- TVAL of ENGFAULT (11 R282). -/
def engTval (issue : Bool) (code kind engine seq : Nat) : Word :=
  0#31 ++ (if issue then 1#1 else 0#1) ++ BitVec.ofNat 4 code ++ 0#4 ++ BitVec.ofNat 4 kind ++
    BitVec.ofNat 4 engine ++ BitVec.ofNat 16 seq

/-- An engine command at issue: it is refused, waits for a slot or for the release of 07 R173, or
is accepted. -/
def engineIssue (q : Issue) (d : XReg) (engine kind : Nat) (refuse : State → Option Trap)
    (tag ctl : State → Word) (ops : State → List Word) (s : State) : State :=
  s.issue { q with side := true, writes := [.x d] } fun s =>
    match refuse s with
    | some tr => s.raise tr
    | none =>
      if s.acquiring || !s.released || decide (2 ≤ (s.tile.onEngine engine).length) then s.stay 0
      else
        let seq := s.tile.nextSeq
        ((s.accept engine kind (tag s) (ctl s) (ops s)).commitX d
          (BitVec.ofNat 64 seq)).finish { q with side := true }

/-- The refusal of a command at issue with CODE 2 (11 R282). -/
def State.engRefusal (s : State) (kind engine : Nat) : Trap :=
  ⟨.engfault, engTval true 2 kind engine s.tile.nextSeq, none⟩

/-! ### Accesses of engines (11 R281, R283, 06 R458) -/

/-- For whom an engine makes an access: tile, context, level and tables of a command, and the line
at which an access of it is parked with its place among those that are (08 R198). -/
structure EngineAgent where
  tile : Nat
  ctx : Nat
  level : Nat
  trbase : Word
  line : Nat
  arrival : Nat
  deriving DecidableEq, Repr

/-- The agent of a command of tile `n` (06 R458). -/
def State.agent (s : State) (n : Nat) (c : Command) : EngineAgent :=
  ⟨n, c.ctx, c.level, (s.getTile n).cr.trbase, c.line, c.arrival⟩

/-- The translation and the checks of an engine's access for a command of tile `n`; the Burin engine
accepts only addresses in the HBM of the device (12 R296). -/
def State.engineCheck (s : State) (n : Nat) (c : Command) (f : Form) (va : Nat) :
    Except AddrFail Xlat :=
  let t := s.getTile n
  match s.translateAt 2048 c.ctx t.cr.trbase c.level va f.kind with
  | .error e => .error e
  | .ok x =>
    let x := if s.isLocal x.pa then x else s.windowFor n x
    if c.engine = 2 ∧ !(s.isLocal x.pa && regionOf (localAddr x.pa) == .hbm) then
      .error ⟨reasonENGTARGET, 0, false⟩
    else match s.placeFail f c.level c.ctx t.tenant x.pa with
    | some e => .error e
    | none => match x.poisonFail with
      | some e => .error e
      | none => .ok x

/-- What the barrier, the dissolution or the kill of a compact lets read within its ranges: its
number, and where the bytes of an address stand (13 R335, R343). -/
abbrev Pass := Option (Nat × (Nat → Nat))

/-- A pass covers an address of a pinned range. -/
def State.passes (s : State) (pass : Pass) (la : Nat) : Bool :=
  match pass with
  | some (num, _) => s.pinnedBy num la
  | none => false

/-- The address at which an engine's access for tile `n` is performed. -/
def State.engineLa (s : State) (n : Nat) (pass : Pass) (la : Nat) : Nat :=
  match pass with
  | some (num, f) => if s.pinnedBy num la then f la else s.pinLa n la
  | none => s.pinLa n la

/-- Why an engine does not perform an access now: it fails, at an address and with a KIND; it waits
for another party; or it is parked or held at a line (11 R281, R283). -/
inductive EngStop where
  | fail (e : AddrFail) (va kind : Nat)
  | wait
  | park (p : Parked) (line : Nat)
  deriving DecidableEq, Repr

/-- What holds up an engine's access at a local address (11 R283): a pin, also of its own hart's
range (19 R449); an access that is parked at the line before it; or the copying of the line, the
host's copy, or a tile of another device that owns it. -/
def State.engineHeld (s : State) (g : EngineAgent) (writes : Bool) (pass : Pass) (la : Nat) :
    Option EngStop :=
  let line := lineOf la
  if s.passes pass la then none
  else if s.pinnedAny la then some (.park (if writes then .pinned else .held) line)
  else match s.lineParked line s.fresh (if g.line = line then g.arrival else 0) with
    | some p => some (.park p line)
    | none =>
      if s.sparing la || (s.farOwner la).isSome ||
          (if writes then s.snoopWait la else s.snoopRead la) then some .wait
      else none

/-- An engine's access reaches its home: the address checked, and where it is performed. With
`defer` the correction of an error there parks it (08 R198, 11 R283, log 6). -/
def State.engineReach (s : State) (g : EngineAgent) (writes : Bool) (kind va : Nat) (pass : Pass)
    (check : State → Except AddrFail Xlat) : State × Except EngStop (Xlat × Nat) :=
  let s := s.detectTables 2048 g.ctx g.trbase g.level va
  if (s.tableStop 2048 g.ctx g.trbase g.level va).isSome then (s, .error .wait)
  else match check s with
    | .error e => (s, .error (.fail e va kind))
    | .ok x =>
      if !s.isLocal x.pa then (s, .ok (x, 0))
      else match s.engineHeld g writes pass (localAddr x.pa) with
        | some e => (s, .error e)
        | none =>
          let la := s.engineLa g.tile pass (localAddr x.pa)
          let corrected := pass.isNone && s.choice.defer &&
            (readSectors la).any fun k => s.injected.any fun p => p.1 == k && !p.2
          if corrected then (s.detectRead la, .error (.park .retry (lineOf (localAddr x.pa))))
          else (s, .ok (x, la))

def engRead : Form := { kind := .load, align := 0 }
def engWrite : Form := { kind := .store, align := 0 }

/-- `len` bytes at an address read at their home, or why they are not. -/
def State.engineRead (s : State) (c : Command) (n : Nat) (pass : Pass) (va len : Nat) :
    State × Except EngStop Nat :=
  match s.engineReach (s.agent n c) false 0 va pass (fun s => s.engineCheck n c engRead va) with
  | (s, .error e) => (s, .error e)
  | (s, .ok (x, la)) =>
    if !s.isLocal x.pa then
      (s, .ok (farBytes (c.seq + 65536 * n) x.pa len))
    else
      let s := s.detectRead la
      match s.lostRead la with
      | some sec => (s.reportLost c.ctx (64 * sec), .error (.fail ⟨reasonUE, 0, false⟩ va 0))
      | none => (s, .ok (s.readKey la len))

/-- `len` bytes within one sector written at their home, which a write has reached. -/
def State.engineWrite (s : State) (c : Command) (n : Nat) (x : Xlat) (len v : Nat) : State :=
  if !s.isLocal x.pa then s
  else
    let la := s.engineLa n none (localAddr x.pa)
    let s := s.writeMem c.ctx la len v
    let s := if len = 64 then s.cleanse (sectorOf la) else s
    (s.modTile n (·.dropStale (lineOf la))).mailboxTriggers [(localAddr x.pa, len)]

/-- A write of an engine leaves the pair of the command's hart: the other hart (13 R340). -/
def State.engineLeaves (s : State) (n : Nat) (x : Xlat) : Option Nat :=
  match s.pairOf n with
  | none => none
  | some m => if s.insidePair n m x.pa then none else some m

/-- A command of tile `n` replaced. -/
def State.setCmd (s : State) (n : Nat) (c : Command) : State :=
  s.modTile n fun t => { t with
    cmds := t.cmds.map fun x => if x.seq = c.seq ∧ x.engine = c.engine then c else x }

/-- A command ended by CODE 1: the failing address and MFINFO with SRC 3 (11 R281). -/
def Command.failAt (c : Command) (e : AddrFail) (va kind : Nat) : Command :=
  let e : CmdEnd := ⟨1, 1, BitVec.ofNat 64 va, 0, some (mfinfoOf e.level 3 kind e.reason)⟩
  { c with ended := some e }

def Command.endWith (c : Command) (status code : Nat) (faddr : Word) (flags : BitVec 5) : Command :=
  let e : CmdEnd := ⟨status, code, faddr, flags, none⟩
  { c with ended := some e }

/-- A command whose access has been performed is parked no longer. -/
def Command.freed (c : Command) : Command := { c with waiting := none, arrival := 0 }

/-- An access of an engine is parked at a line, whose home takes it into its fault queue: one that
stands there already keeps its place, and a full queue refuses it, to be sent again (08 R197, R198,
11 R283). A held read stands at the member's tile (13 R335). -/
def State.parkCmd (s : State) (n : Nat) (c : Command) (p : Parked) (line : Nat) : State :=
  if p = .held then s.setCmd n { c with waiting := some .held, line := line, arrival := 0 }
  else if c.arrival ≠ 0 ∧ c.line = line then s.setCmd n { c with waiting := some p }
  else
    let s := s.setCmd n c.freed
    if s.faultQueueFull (s.homeOf line) then s
    else { s with fresh := s.fresh + 1 }.setCmd n
      { c with waiting := some p, line := line, arrival := s.fresh }

/-- A command whose access is not performed: it ends, waits, or is parked. -/
def State.stopCmd (s : State) (n : Nat) (c : Command) : EngStop → State
  | .fail e va kind => s.setCmd n (c.failAt e va kind)
  | .wait => s.setCmd n c
  | .park p line => s.parkCmd n c p line

/-- The command that an engine works on for tile `n`: its oldest one that has not ended. -/
def State.current (s : State) (n engine : Nat) : Option Command :=
  ((s.getTile n).onEngine engine).find? (·.ended.isNone)

/-- Whether a write that leaves the pair, with hash `h`, is performed, and the command with that
decision; none while the other tile of the pair, `leaves`, has not come to the same write (13
R340). -/
def State.copyMatched (s : State) (n : Nat) (c : Command) (leaves : Option Nat) (h : Word) :
    State × Command × Option Bool :=
  match leaves with
  | none => (s, c, some true)
  | some m =>
    let primary := !(s.getTile n).member.twin
    match c.copy, (s.current m c.engine).bind fun d => d.copy.map fun p => (d, p) with
    | some (_, some ok), _ => (s, c, some (ok && primary))
    | _, some (d, (h', none)) =>
      let ok := h == h'
      let c := { c with copy := some (h, some ok) }
      let s := (s.setCmd m { d with copy := some (h', some ok) }).setCmd n c
      (if ok then s else s.mismatch n, c, some (ok && primary))
    | _, _ =>
      let c := { c with copy := some (h, none) }
      (s.setCmd n c, c, none)

/-- A range of bytes cut at sector boundaries. -/
def pieces (a : Nat) : Nat → Nat → List (Nat × Nat)
  | 0, _ => []
  | fuel + 1, n =>
    if n = 0 then []
    else
      let k := min n (64 - a % 64)
      (a % 2 ^ 64, k) :: pieces (a + k) fuel (n - k)

/-- Pieces read in turn, after those that have been: all values, and why the reading has stopped. -/
def State.readPieces (s : State) (n : Nat) (c : Command) (pass : Pass) :
    List (Nat × Nat) → List Nat → State × List Nat × Option EngStop
  | [], got => (s, got, none)
  | (a, len) :: rest, got =>
    match s.engineRead c n pass a len with
    | (s, .error e) => (s, got, some e)
    | (s, .ok v) => s.readPieces n c pass rest (got ++ [v])

/-- The bytes of pieces as one value. -/
def joinPieces (ps : List (Nat × Nat)) (got : List Nat) : Nat :=
  (ps.zip got).foldr (fun p v => p.2 + 256 ^ p.1.2 * v) 0

/-- The pieces of a source that a command has not read yet are read: the command with what it has
read, and the value of all. -/
def State.readSource (s : State) (n : Nat) (c : Command) (pass : Pass) (ps : List (Nat × Nat)) :
    State × Command × Except EngStop Nat :=
  let (s, got, e) := s.readPieces n c pass (ps.drop c.buffer.length) c.buffer
  (s, { c with buffer := got }, match e with
    | some e => .error e
    | none => .ok (joinPieces ps got))

/-! ### The copy engine (11 R277–R281) -/

/-- What a copy command moves: destination, source, row length, rows and strides. A fill has no
source. -/
structure CopyShape where
  dst : Nat
  src : Nat
  len : Nat
  rows : Nat
  dstride : Int
  sstride : Int
  deriving DecidableEq, Repr

/-- The shape of a command, once its descriptor has been read. -/
def Command.shape (c : Command) : CopyShape :=
  let w (l : List Word) (i : Nat) : Nat := (l.getD i 0).toNat
  if c.kind = 1 then
    ⟨w c.desc 0, w c.desc 1, w c.desc 2, w c.desc 3, (c.desc.getD 4 0).toInt,
     (c.desc.getD 5 0).toInt⟩
  else ⟨w c.ops 0, w c.ops 1, w c.ops 2, 1, 0, 0⟩

/-- An address of a row, modulo 2^64. -/
def rowAddr (base : Nat) (stride : Int) (row pos : Nat) : Nat :=
  (((base : Int) + row * stride + pos) % (2 ^ 64 : Nat)).toNat

/-- The bytes of a destination sector: those of the source, read before, or of the fill. -/
def State.copyBytes (s : State) (n : Nat) (c : Command) (pass : Pass) (a src len : Nat) :
    State × Command × Except EngStop Nat :=
  if c.kind = 2 then
    (s, c, .ok (readLE (fun b => slice (c.ops.getD 1 0) (8 * (b % 8)) 8) a len))
  else s.readSource n c pass (pieces src 2 len)

/-- A copy command after the write of `len` bytes of its row. -/
def Command.afterWrite (c : Command) (len : Nat) : Command :=
  let last := decide (c.shape.len ≤ c.pos + len)
  { c.freed with
    copy := none, buffer := []
    done := c.done + len
    pos := if last then 0 else c.pos + len
    row := if last then c.row + 1 else c.row }

/-- One destination sector of a copy or fill, written under its byte mask once its bytes have been
read (11 R277–R279). -/
def State.copyRow (s : State) (n : Nat) (c : Command) (pass : Pass) : State :=
  let g := c.shape
  if g.len = 0 ∨ g.rows ≤ c.row then s.setCmd n (c.endWith 0 0 0 0)
  else
    let a := rowAddr g.dst g.dstride c.row c.pos
    let len := min (64 - a % 64) (g.len - c.pos)
    match s.copyBytes n c pass a (rowAddr g.src g.sstride c.row c.pos) len with
    | (s, c, .error e) => s.stopCmd n c e
    | (s, c, .ok v) =>
      match s.engineReach (s.agent n c) true 1 a none (fun s => s.engineCheck n c engWrite a) with
      | (s, .error e) => s.stopCmd n c e
      | (s, .ok (x, _)) =>
        match s.copyMatched n c (s.engineLeaves n x) (Config.pairHash [c.kind, x.pa, len, v]) with
        | (s, _, none) => s
        | (s, c, some goes) =>
          let s := if goes then s.engineWrite c n x len v else s
          let c := c.afterWrite len
          s.setCmd n (if g.rows ≤ c.row then c.endWith 0 0 0 0 else c)

/-- The descriptor of a CPYD is read (11 R279). -/
def State.readDescriptor (s : State) (n : Nat) (c : Command) (pass : Pass) :
    State × Option Command :=
  let a := (c.ops.getD 0 0).toNat
  match s.engineRead c n pass a 64 with
  | (s, .error e) => (s.stopCmd n c e, none)
  | (s, .ok v) =>
    let ws : List Word := (List.range 8).map fun k => BitVec.ofNat 64 (v / 2 ^ (64 * k))
    let w (i : Nat) : Word := ws.getD i 0
    let c := { c.freed with desc := ws, tag := w 6 }
    if slice (w 2) 32 32 ≠ 0 ∨ slice (w 3) 32 32 ≠ 0 ∨ w 7 ≠ 0 then
      (s.setCmd n (c.endWith 1 2 (BitVec.ofNat 64 a) 0), none)
    else (s.setCmd n c, some c)

/-! ### Commands of several members (11 R284–R287) -/

/-- Two places are of one group. -/
def samePlace (a b : Option Place) : Bool :=
  match a, b with
  | some x, some y => x.lid == y.lid && x.gang == y.gang && x.group == y.group
  | _, _ => false

/-- Where the commands of a hart stand, the oldest first: in its save areas, which keep those issued
before CTXSAVE, and with the hart itself (11 R293, 16 R415). -/
def State.holders (s : State) (k : Nat) : List Nat := (s.getTile k).away.reverse ++ [k]

/-- The hart at a ring position of the group of hart `n`: the one on the tile there, or the one that
has been saved from it (11 R284, R293). -/
def State.ringHart (s : State) (n p : Nat) : Nat :=
  let m := clusterOf (s.homeTile n) * 32 + p
  if samePlace (s.placeOf n) (s.getTile m).place then m
  else match (s.gangs.flatMap (·.saved)).find? fun h =>
      h.tile == m && samePlace (s.placeOf n) (s.placeOf h.store) with
    | some h => h.store
    | none => m

/-- The ring members of a mask, in ring order. -/
def State.ringTiles (s : State) (n : Nat) (mask : BitVec 32) : List Nat :=
  ((List.range 32).filter (bitAt mask)).map (s.ringHart n)

/-- The oldest command of a hart on an engine that has not ended, with where it stands. -/
def State.oldest (s : State) (k engine : Nat) : Option (Nat × Command) :=
  (s.holders k).findSome? fun h => (s.current h engine).map fun c => (h, c)

/-- The commands of the members of an RROT or collective that stand next on their engine. -/
def State.matched (s : State) (ms : List Nat) (engine : Nat) (k : Command → Bool) :
    List (Nat × Command) :=
  ms.filterMap fun m => (s.oldest m engine).filter fun p => k p.2

/-- Every command of a list ends alike. -/
def State.endAll (s : State) (l : List (Nat × Command)) (status code : Nat) : State :=
  l.foldl (fun s p => s.setCmd p.1 (p.2.endWith status code 0 0)) s

/-- What has come of the reads of the members' sources: where one has failed its command ends with
CODE 1 and every other with CODE 3; where one waits, the others keep what they have read; and
otherwise `go` takes the values (11 R281, R284, R287). -/
def State.afterReads (s : State) (zs : List (Nat × Command × Except EngStop Nat))
    (go : State → List Nat → State) : State :=
  let failed (z : Nat × Command × Except EngStop Nat) : Bool := match z.2.2 with
    | .error (.fail _ _ _) => true
    | .error .wait | .error (.park _ _) | .ok _ => false
  let stopped (z : Nat × Command × Except EngStop Nat) : Bool := match z.2.2 with
    | .error _ => true
    | .ok _ => false
  if zs.any failed then
    zs.foldl (fun s z => match z.2.2 with
      | .error (.fail e a kind) => s.setCmd z.1 (z.2.1.failAt e a kind)
      | .error .wait | .error (.park _ _) | .ok _ => s.setCmd z.1 (z.2.1.endWith 1 3 0 0)) s
  else if zs.any stopped then
    zs.foldl (fun s z => match z.2.2 with
      | .error e => s.stopCmd z.1 z.2.1 e
      | .ok _ => s.setCmd z.1 z.2.1.freed) s
  else
    go s (zs.map fun z => match z.2.2 with
      | .ok v => v
      | .error _ => 0)

/-- The command of a member that has all that it is to write: the value and the flags of its
record. -/
def Command.withResult (c : Command) (v : Nat) (flags : BitVec 5) : Command :=
  { c.freed with pos := 1, buffer := [v], cursor := flags.setWidth 64 }

/-! ### Ring rotation (11 R284, R285) -/

/-- The local address of an offset in window 0 of the tile of hart `n`. No rule gives the form of
FADDR of an RROT, whose operands are such offsets: the model takes this address, with device field 0
(DESIGN CHOICE, log 34). -/
def State.ringAddr (s : State) (n o : Nat) : Nat := 0x10000000000 + s.homeTile n * 0x400000 + o

/-- The local addresses of the sectors of a range of hart `n`. -/
def State.ringSectors (s : State) (n o len : Nat) : List Nat :=
  (List.range (len / 64)).map fun k => s.ringAddr n (o + 64 * k)

/-- The first sector of a range of hart `n` whose access fails, with its reason. The SRAM of a saved
hart stands in its area, which has no poison. -/
def State.ringFail (s : State) (n o len : Nat) (reads : Bool) : Option (AddrFail × Nat) :=
  (List.range (len / 64)).findSome? fun k =>
    let a := s.ringAddr n (o + 64 * k)
    if !(s.getTile n).scratch ((o + 64 * k) / 0x10000) then some (⟨reasonNOTSCRATCH, 0, false⟩, a)
    else if reads && decide (n < 2048) && s.lost (sectorOf a) then some (⟨reasonUE, 0, false⟩, a)
    else none

/-- What holds up an access to a range of hart `n`. -/
def State.rangeHeld (s : State) (n : Nat) (c : Command) (o len : Nat) (writes : Bool) (pass : Pass) :
    Option EngStop :=
  if 2048 ≤ n then none
  else (s.ringSectors n o len).findSome? (s.engineHeld (s.agent n c) writes pass)

/-- The source range of a member of a rotation is read, unless it has been. -/
def State.ringRead (s : State) (n : Nat) (c : Command) (len : Nat) (pass : Pass) :
    State × Command × Except EngStop Nat :=
  let src := (c.ops.getD 0 0).toNat
  match c.buffer, s.rangeHeld n c src len false pass with
  | v :: _, _ => (s, c, .ok v)
  | [], some e => (s, c, .error e)
  | [], none =>
    let las := if n < 2048 then s.ringSectors n src len else []
    let corrected := las.find? fun a => pass.isNone && s.choice.defer &&
      s.injected.any fun p => p.1 == sectorOf a && !p.2
    let s := las.foldl (fun s a => s.detect (sectorOf a)) s
    match corrected, s.ringFail n src len true with
    | some a, _ => (s, c, .error (.park .retry (lineOf a)))
    | none, some (e, a) => (s, c, .error (.fail e a 0))
    | none, none =>
      let byte (o : Nat) : Byte :=
        if n < 2048 then s.readByte (s.engineLa n pass (s.ringAddr n o))
        else (s.getTile n).sram.read o
      let v := readLE byte src len
      (s, { c with buffer := [v] }, .ok v)

/-- The sources of a rotation; a receive range outside the scratchpad segments counts as a failed
access, too. -/
def State.ringReads (s : State) (len : Nat) (pass : Pass) :
    List (Nat × Command) → State × List (Nat × Command × Except EngStop Nat)
  | [] => (s, [])
  | (n, c) :: rest =>
    let (s, c, r) := s.ringRead n c len pass
    let r := match r, s.ringFail n (c.ops.getD 1 0).toNat len false with
      | .error (.fail e a k), _ => .error (.fail e a k)
      | _, some (e, a) => .error (.fail e a 1)
      | r, none => r
    let (s, l) := s.ringReads len pass rest
    (s, (n, c, r) :: l)

/-- A member of a rotation receives its bytes. -/
def State.ringWrite (s : State) (n : Nat) (c : Command) : State :=
  let dst := (c.ops.getD 1 0).toNat
  let len := (c.ops.getD 2 0).toNat
  match s.rangeHeld n c dst len true none with
  | some e => s.stopCmd n c e
  | none =>
    let s := writeLE (fun (s : State) a b => s.modTile n (·.windowStore a b)) s dst
      (c.buffer.headD 0) len
    let s := if n < 2048 then
        ((s.ringSectors n dst len).foldl (fun s a => s.cleanse (sectorOf a)) s).mailboxTriggers
          [(s.ringAddr n dst, len)]
      else s
    s.setCmd n ({ c.freed with done := len, buffer := [] }.endWith 0 0 0 0)

/-- A rotation whose members have all issued (11 R284). -/
def State.rotate (s : State) (l : List (Nat × Command)) (shift len : Nat) (pass : Pass) : State :=
  let (s, zs) := s.ringReads len pass l
  s.afterReads zs fun s vs =>
    let n := l.length
    l.zipIdx.foldl (fun s q =>
      s.ringWrite q.1.1 (q.1.2.withResult (vs.getD ((q.2 + n - shift % n) % n) 0) 0)) s

/-- The MASK of an RROT (11 R284). -/
def Command.mask (c : Command) : BitVec 32 := slice c.ctl 0 32

def Command.isRing (c : Command) : Bool := c.engine == 0 && c.kind == 3

/-- A command that waits for other members has not all that it is to write. -/
def Command.awaits (c : Command) : Bool := c.pos == 0

/-- The masks of the members that a mask names, and of theirs in turn, taken together: where matched
members differ in MASK, every member of any of them ends alike (11 R284). -/
def State.ringClosure (s : State) (n : Nat) : Nat → BitVec 32 → BitVec 32
  | 0, mask => mask
  | k + 1, mask =>
    let near := (s.ringTiles n mask).filter fun m => samePlace (s.placeOf n) (s.placeOf m)
    s.ringClosure n k ((s.matched near 0 fun c => c.isRing && c.awaits).foldl
      (fun a p => a ||| p.2.mask) mask)

/-- The rotation of a member's current RROT, where every member has issued (11 R284). -/
def State.resolveRing (s : State) (n : Nat) (c : Command) (pass : Pass) : State :=
  if !c.awaits then s.ringWrite n c
  else
    let ms := s.ringTiles n (s.ringClosure n 32 c.mask)
    let l := s.matched ms 0 fun c => c.isRing && c.awaits
    if ms.any fun m => !samePlace (s.placeOf n) (s.placeOf m) then s.endAll l 1 3
    else if l.length < ms.length then s
    else if l.any fun p => p.2.ctl != c.ctl || p.2.ops.getD 2 0 != c.ops.getD 2 0 then s.endAll l 1 4
    else s.rotate l (slice c.ctl 32 5).toNat (c.ops.getD 2 0).toNat pass

/-! ### Collectives (11 R286–R288) -/

/-- The members of a collective on this device, by ascending HARTID (11 R286). -/
def State.members (s : State) (n gsel : Nat) : List Nat :=
  match s.placeOf n with
  | none => [n]
  | some me =>
    let mine := s.tiles.filterMap fun p => match p.2.place with
      | some x =>
        if x.lid == me.lid && x.gang == me.gang && (gsel != 0 || x.group == me.group) then
          some (x.launch, p.1) else none
      | none => none
    (sortBy (fun a b => decide (a.1 ≤ b.1)) mine).map (·.2)

/-- The domain gang of a collective that takes in members on other devices (11 R286). -/
def State.farGang (s : State) (n gsel : Nat) : Option DomainGang :=
  if gsel ≠ 2 then none
  else match s.placeOf n with
    | none => none
    | some me => s.domainGangs.find? fun g => g.lid == me.lid && g.idx == me.gang &&
        g.members.any (· != s.device)

/-- Members of the domain gang on other devices take part (11 R286). -/
def State.farMembers (s : State) (n gsel : Nat) : Bool := (s.farGang n gsel).isSome

/-- The members of the domain gang on devices with lower ids, and on all devices: each device holds
as many as this one (11 R286, 15 R387). -/
def State.farCount (s : State) (n gsel : Nat) (here : Nat) : Nat × Nat :=
  match s.farGang n gsel with
  | none => (0, here)
  | some g => (here * (g.members.filter (· < s.device)).length, here * max 1 g.members.length)

/-- One element of an ALLRED (11 R287): the result and its flags. -/
def reduceElem (op : Nat) (t : ElemType) (l : List Nat) : Nat × FpFlags :=
  match op with
  | 0 => if t.isFp then fSum t arrayMode (l.map t.fmt.value)
         else (t.ofInt ((l.map t.toInt).foldl (· + ·) 0), 0)
  | 1 => (extreme t (fMin t) min l, 0)
  | 2 => (extreme t (fMax t) max l, 0)
  | 3 => (l.foldl (· &&& ·) (2 ^ t.width - 1), 0)
  | 4 => (l.foldl (· ||| ·) 0, 0)
  | _ => (l.foldl (· ^^^ ·) 0, 0)

/-- The sources of the members that `reads` names. -/
def State.readSources (s : State) (len : Nat) (pass : Pass) (reads : Nat → Bool) :
    List (Nat × Command) → State × List (Nat × Command × Except EngStop Nat)
  | [] => (s, [])
  | (m, c) :: rest =>
    let (s, c, r) :=
      if reads m then s.readSource m c pass (pieces (c.ops.getD 0 0).toNat (len + 1) len)
      else (s, c, .ok 0)
    let (s, l) := s.readSources len pass reads rest
    (s, (m, c, r) :: l)

/-- Destination pieces written in turn: how many bytes, and why the writing has stopped. `goes` says
whether those that leave the pair are performed (13 R340). -/
def State.writePieces (s : State) (n : Nat) (c : Command) (goes : Bool) (v : Nat) :
    List (Nat × Nat) → State × Nat × Option EngStop
  | [] => (s, 0, none)
  | (a, len) :: rest =>
    match s.engineReach (s.agent n c) true 1 a none (fun s => s.engineCheck n c engWrite a) with
    | (s, .error e) => (s, 0, some e)
    | (s, .ok (x, _)) =>
      let s := if goes || (s.engineLeaves n x).isNone then s.engineWrite c n x len (v % 256 ^ len)
        else s
      let (s, k, e) := s.writePieces n c goes (v / 256 ^ len) rest
      (s, len + k, e)

/-- The physical addresses at which a destination leaves the pair of hart `n`, with its other hart
(13 R340). -/
def State.leaving (s : State) (n : Nat) (c : Command) (ps : List (Nat × Nat)) : List (Nat × Nat) :=
  ps.filterMap fun p => match s.engineCheck n c engWrite p.1 with
    | .error _ => none
    | .ok x => (s.engineLeaves n x).map fun m => (m, x.pa)

/-- A member of a collective whose result is known writes what it has not written yet, and ends
(11 R287). What leaves the pair of a TWIN compact goes on only where both tiles' copies match
(13 R340). -/
def State.writeResult (s : State) (n : Nat) (c : Command) : State :=
  let len := (slice c.ctl 0 16).toNat + 1
  let v := c.buffer.headD 0
  let ps := pieces ((c.ops.getD 1 0).toNat + c.done) (len + 1) (len - c.done)
  let out := s.leaving n c ps
  match s.copyMatched n c (out.head?.map (·.1)) (Config.pairHash (c.kind :: v :: out.map (·.2))) with
  | (s, _, none) => s
  | (s, c, some goes) =>
    let (s, k, e) := s.writePieces n c goes (v / 256 ^ c.done) ps
    let c := { c with done := c.done + k }
    match e with
    | some e => s.stopCmd n c e
    | none => s.setCmd n ({ c.freed with copy := none, buffer := [] }.endWith 0 0 0
        (c.cursor.setWidth 5))

/-- The result of a collective, with the flags: the bytes that every member receives. `far` says
that some of them come from members on other devices: they are not known, nor are the flags of a
floating-point sum, the only reduction that has any (09 R228, 11 R271, R287, log 15). -/
def collectiveValue (c : Command) (far : Bool) (vs : List Nat) (len : Nat) : Nat × FpFlags :=
  let t := (ElemType.ofCode (slice c.ctl 16 4)).getD .i32
  let op := (slice c.ctl 20 3).toNat
  if far then
    (farBytes c.seq 0 len,
     if c.kind = 4 ∧ t.isFp ∧ op = 0 then slice (Config.remoteWord c.seq (len + 8)) 0 5 else 0)
  else if c.kind = 5 then (vs.headD 0, 0)
  else
    let out := (List.range (len * 8 / t.width)).map fun k =>
      reduceElem op t (vs.map fun v => v / 2 ^ (t.width * k) % 2 ^ t.width)
    (packNat t.width (fun k => (out.getD k (0, 0)).1) out.length,
     out.foldl (fun f p => f ||| p.2) 0)

/-- GSEL of a collective (11 R286). -/
def Command.gsel (c : Command) : Nat := (slice c.ctl 24 2).toNat

/-- The members of a set whose next collective is one of that set: those of one member set are
matched in issue order (11 R286). -/
def State.matchedColls (s : State) (n gsel : Nat) : List (Nat × Command) :=
  let ms := s.members n gsel
  let far := s.farMembers n gsel
  (s.matched ms 1 Command.awaits).filter fun p =>
    s.members p.1 p.2.gsel == ms && s.farMembers p.1 p.2.gsel == far

/-- The collective of a member's current command, where every member has issued: those on other
devices have where an event has said so (11 R285–R287, log 57). Control packets carry it to their
devices (14 R361). -/
def State.resolveCollective (s : State) (n : Nat) (c : Command) (pass : Pass) : State :=
  if !c.awaits then s.writeResult n c
  else
    let ms := s.members n c.gsel
    let l := s.matchedColls n c.gsel
    let (below, total) := s.farCount n c.gsel ms.length
    let len := (slice c.ctl 0 16).toNat + 1
    let root := (slice c.ctl 32 21).toNat
    if l.length < ms.length || (s.farMembers n c.gsel && !(l.any (·.2.raised))) then s
    else if l.any fun p => p.2.ctl != c.ctl || p.2.tag != c.tag || p.2.kind != c.kind then
      s.endAll l 1 4
    else if c.kind = 5 ∧ total ≤ root then s.endAll l 1 2
    else
      let rootHere := decide (below ≤ root ∧ root < below + ms.length)
      let sources := if c.kind = 4 then l else if rootHere then (l.drop (root - below)).take 1 else []
      let far := s.farMembers n c.gsel && !(c.kind == 5 && rootHere)
      let (s, zs) := s.readSources len pass (fun m => sources.any (·.1 == m)) l
      s.afterReads zs fun s vs =>
        let read := (zs.zip vs).filter fun z => sources.any (·.1 == z.1.1)
        let (v, fl) := collectiveValue c far (read.map (·.2)) len
        let s := match s.farGang n c.gsel with
          | some g => s.sendOrdered .ctl (s.getTile n).tenant g.members
          | none => s
        let s := l.foldl (fun s p => s.setCmd p.1 (p.2.withResult v fl)) s
        l.foldl (fun s p => s.writeResult p.1 (p.2.withResult v fl)) s

/-- The engine of a hart, its harts, and the hart's place among them (11 R266). -/
def State.engineOf (s : State) (n engine : Nat) : (Nat × Nat) × Nat × Nat :=
  let t := s.homeTile n
  if engine = 0 then ((0, clusterOf t), 32, t % 32) else ((engine, dieOf t), 512, t % 512)

/-- It is the turn of hart `n` to have its next command begun: harts are served round-robin, from
the one that follows the last (11 R267). -/
def State.turnDue (s : State) (n engine : Nat) : Bool :=
  let (key, size, place) := s.engineOf n engine
  let last := match s.turns.find? (·.1 == key) with
    | some p => p.2
    | none => size - 1
  let rank (k : Nat) : Nat := (k + size - (last + 1)) % size
  s.tiles.all fun p => match s.current p.1 engine with
    | some c =>
      let (k, _, i) := s.engineOf p.1 engine
      c.begun || k != key || decide (rank place ≤ rank i)
    | none => true

/-- Commands that the hart of `n` has issued earlier to the engine, and that stand in older save
areas of it (11 R267, 16 R415). -/
def State.behindArea (s : State) (n engine : Nat) : Bool :=
  ((s.holders (s.ownerHart n)).takeWhile (· != n)).any fun h => (s.current h engine).isSome

/-- The engine begins the command of a hart. -/
def State.beginCmd (s : State) (n : Nat) (c : Command) : State :=
  let (key, _, place) := s.engineOf n c.engine
  let turns := (key, place) :: s.turns.filter fun p => p.1 != key
  { s with turns := turns }.setCmd n { c with begun := true }

/-- What the copy engine or the collective engine does for the command that it has begun. -/
def State.workOn (s : State) (n : Nat) (c : Command) (pass : Pass) : State :=
  if c.engine = 1 then s.resolveCollective n c pass
  else if c.kind = 3 then s.resolveRing n c pass
  else if c.kind = 1 ∧ c.desc = [] then
    (match s.readDescriptor n c pass with
     | (s, some c) => s.copyRow n c pass
     | (s, none) => s)
  else s.copyRow n c pass

/-- The command that an engine works on for hart `n`, begun if it is its turn (11 R267). -/
def State.inTurn (s : State) (n engine : Nat) : Option (State × Command) :=
  match s.current n engine with
  | none => none
  | some c =>
    if c.begun then some (s, c)
    else if s.turnDue n engine && !s.behindArea n engine then
      some (s.beginCmd n c, { c with begun := true })
    else none

/-- What the copy engine or the collective engine does next for hart `n`. -/
def State.engineWork (s : State) (n engine : Nat) (pass : Pass) : State :=
  match s.inTurn n engine with
  | none => s
  | some (s, c) => s.workOn n c pass

/-! ### Completion records (11 R269, R271, R273, R282) -/

/-- The completion record of a command (11 R271); a Burin command brings its own words 2 and 3. -/
def Command.record (c : Command) (e : CmdEnd) : Record where
  w0 := 0#27 ++ e.flags ++ BitVec.ofNat 4 e.code ++ BitVec.ofNat 4 e.status ++
    BitVec.ofNat 4 c.kind ++ BitVec.ofNat 4 c.engine ++ BitVec.ofNat 16 c.seq
  w1 := c.tag
  w2 := if c.engine = 2 then c.word2 else BitVec.ofNat 64 c.done
  w3 := if c.engine = 2 then c.word3 else e.faddr

/-- The table entries for the count word are examined; whether they keep its translation waiting. -/
def State.countTables (s : State) (n : Nat) : State × Bool :=
  let t := s.getTile n
  let va := (t.cr.inbcnta &&& ~~~7#64).toNat
  if !bitAt t.cr.inbcnta 0 then (s, false)
  else
    let s := s.detectTables 2048 t.ctx t.cr.trbase t.inbcntLevel va
    (s, (s.tableStop 2048 t.ctx t.cr.trbase t.inbcntLevel va).isSome)

/-- The count word is incremented at its home, or the increment fails (11 R273, 06 R458). -/
def State.countWord (s : State) (n : Nat) (c : Command) : State :=
  let t := s.getTile n
  let a := t.cr.inbcnta
  if !bitAt a 0 then s
  else
    let va := a &&& ~~~7#64
    let c' := { c with engine := 0, level := t.inbcntLevel, ctx := t.ctx }
    let fail (m : Option Word) (s : State) : State :=
      s.deferTo n ⟨.engfault, engTval false 1 c.kind c.engine c.seq, m⟩
    match s.engineCheck n c' { kind := .atomic, align := 0 } va.toNat with
    | .error e => fail (some (mfinfoOf e.level 3 3 e.reason)) s
    | .ok x =>
      let r := s.atTile n fun s =>
        let r := { s.newReq (.amo 0) [x.acc 8 0 1] .none va with
          unit := .eh
          engine := some (BitVec.ofNat 4 c.kind ++ BitVec.ofNat 4 c.engine ++ BitVec.ofNat 16 c.seq)
          ctx := c'.ctx, level := c'.level }
        s.request r
      r

/-- A record is posted to the inbox: the count word, and the trap of a failed command
(11 R271, R273, R282, 12 R311). -/
def State.postRecord (s : State) (n : Nat) (c : Command) (e : CmdEnd) (r : Record) : State :=
  let s := s.modTile n fun t => { t with inbox := t.inbox ++ [r] }
  let s := if e.status = 1 then
      (let t := s.getTile n
       if bitAt t.cr.inbctl 2 then
         s.deferTo n ⟨if c.engine = 2 then .burinfault else .engfault,
           engTval false e.code c.kind c.engine c.seq, e.mfinfo⟩
       else s.modTile n fun t => match e.mfinfo with
         | some w => { t with cr := { t.cr with mfinfo := w } }
         | none => t)
    else s
  s.countWord n c

/-- The oldest command of an engine posts its completion and frees its slot (11 R267, R269). -/
def State.postCompletion (s : State) (n engine : Nat) : State :=
  match (s.getTile n).onEngine engine with
  | [] => s
  | c :: _ =>
    match c.ended with
    | none => s
    | some e =>
      if 32 ≤ (s.getTile n).inbox.length then s
      else match s.countTables n with
        | (s, true) => s
        | (s, false) =>
          let s := s.modTile n fun t => { t with
            cmds := t.cmds.filter fun x => !(x.seq == c.seq && x.engine == c.engine) }
          s.postRecord n c e (c.record e)

/-! ### The instructions (11 R270) -/

/-- The operands of a block of four registers. -/
def State.blockOf (s : State) (a : XReg) : List Word := (block4 a).map s.readX

def blockReads (a : XReg) : List RegRef := (block4 a).map .x

/-- The length limit and the overlap check of a copy (11 R277, R278). -/
def copyRefused (fill : Bool) (ops : List Word) : Bool :=
  let d := (ops.getD 0 0).toNat
  let z := (ops.getD 1 0).toNat
  let n := (ops.getD 2 0).toNat
  decide (2 ^ 36 ≤ n) || (!fill && decide (z < d ∧ d < z + n))

/-- A destination range that the command's registers name reaches a pinned backing range of the
caller's context (13 R319, R335): the first such address. -/
def State.compactHit (s : State) (dst len : Nat) : Option Trap :=
  (s.pins.findSome? fun p =>
    let a := p.back.toNat
    let b := a + 0x10000 * p.pages.length
    if p.ctx = s.tile.ctx ∧ dst < b ∧ a < dst + len then some (max a dst) else none).map
      fun va => ⟨.compactwr, BitVec.ofNat 64 va, some (mfinfoOf 0 0 1 0)⟩

/-- A refusal of the operands, and otherwise the check of pinned ranges; the addresses of a copy of
no bytes are not checked (11 R280). -/
def State.refuseCopy (s : State) (bad : Bool) (kind engine : Nat) (dst len : Word) : Option Trap :=
  if bad then some (s.engRefusal kind engine)
  else if len = 0 then none else s.compactHit dst.toNat len.toNat

/-- CPY (11 R277). -/
def execCpy (st : StallCode) (d a : XReg) (s : State) : Host.Outcome State Fault Refusal :=
  .next (engineIssue { word := encode (.cpy st d a), stall := st, reads := blockReads a } d 0 0
    (fun s => s.refuseCopy (copyRefused false (s.blockOf a)) 0 0 ((s.blockOf a).getD 0 0)
      ((s.blockOf a).getD 2 0))
    (fun s => (s.blockOf a).getD 3 0) (fun _ => 0) (fun s => s.blockOf a) s)

/-- CPYD (11 R279). TAG of its record comes with the descriptor; where the read of that fails no
rule gives one, and the model puts 0 (DESIGN CHOICE, log 34). -/
def execCpyd (st : StallCode) (d a : XReg) (s : State) : Host.Outcome State Fault Refusal :=
  .next (engineIssue { word := encode (.cpyd st d a), stall := st, reads := [.x a] } d 0 1
    (fun s => if (s.readX a).toNat % 64 ≠ 0 then some ⟨.misalign, s.readX a, none⟩ else none)
    (fun _ => 0) (fun _ => 0) (fun s => [s.readX a]) s)

/-- CPYFILL (11 R278). -/
def execCpyfill (st : StallCode) (d a : XReg) (s : State) : Host.Outcome State Fault Refusal :=
  .next (engineIssue { word := encode (.cpyfill st d a), stall := st, reads := blockReads a } d 0 2
    (fun s => s.refuseCopy (copyRefused true (s.blockOf a)) 2 0 ((s.blockOf a).getD 0 0)
      ((s.blockOf a).getD 2 0))
    (fun s => (s.blockOf a).getD 3 0) (fun _ => 0) (fun s => s.blockOf a) s)

/-- The refusals of RROT (11 R284). -/
def ringRefused (position : Nat) (ops : List Word) (ctl : Word) : Bool :=
  let src := (ops.getD 0 0).toNat
  let dst := (ops.getD 1 0).toNat
  let len := (ops.getD 2 0).toNat
  decide (slice ctl 37 27 ≠ 0) || decide (slice ctl 32 5 = 0) || !bitAt ctl position ||
    decide (len % 64 ≠ 0 ∨ 65536 < len ∨ src % 64 ≠ 0 ∨ dst % 64 ≠ 0 ∨
      0x80000 < src + len ∨ 0x80000 < dst + len)

/-- What names the member set of an RROT or a collective: MASK or GSEL. -/
def Command.setKey (c : Command) : Nat × Nat :=
  (c.engine, if c.engine = 0 then c.mask.toNat else c.gsel)

/-- A command that its members have given up ends with CODE 5 at once (11 R285). -/
def State.lateEnd (s : State) : State :=
  match s.tile.cmds.getLast? with
  | some c =>
    if (c.isRing || c.engine == 1) && s.tile.late.contains c.setKey then
      { s with tile := { s.tile with late := s.tile.late.erase c.setKey } }.setCmd s.cur
        (c.endWith 1 5 0 0)
    else s
  | none => s

/-- Whether an instruction has put a command into a slot: the slots before and after. -/
def State.lateAfter (s s' : State) : State :=
  if s.tile.cmds.length < s'.tile.cmds.length then s'.lateEnd else s'

/-- RROT (11 R284). -/
def execRrot (st : StallCode) (d a b : XReg) (s : State) : Host.Outcome State Fault Refusal :=
  .next (s.lateAfter (engineIssue
    { word := encode (.rrot st d a b), stall := st, reads := .x b :: blockReads a } d 0 3
    (fun s => if ringRefused (s.cur % 32) (s.blockOf a) (s.readX b) then some (s.engRefusal 3 0)
      else none)
    (fun s => (s.blockOf a).getD 3 0) (fun s => s.readX b) (fun s => s.blockOf a) s))

/-- The refusals of ALLRED and BCASTC (11 R286). -/
def collectiveRefused (allred : Bool) (ops : List Word) : Bool :=
  let c := ops.getD 2 0
  let op := (slice c 20 3).toNat
  let ty := (slice c 16 4).toNat
  let len := (slice c 0 16).toNat + 1
  let reserved := decide (slice c 53 11 ≠ 0) || decide (slice c 26 6 ≠ 0) || bitAt c 23
  reserved || decide (slice c 24 2 = 3) ||
    if allred then
      decide (slice c 32 21 ≠ 0) || decide (6 ≤ op) ||
        !([2, 3, 6, 7, 8, 9, 10].contains ty) ||
        (decide (3 ≤ op) && decide (8 ≤ ty)) ||
        (match ElemType.ofCode (slice c 16 4) with
         | some t =>
           let w := t.width / 8
           decide (len % w ≠ 0 ∨ (ops.getD 0 0).toNat % w ≠ 0 ∨ (ops.getD 1 0).toNat % w ≠ 0)
         | none => true)
    else decide (slice c 16 7 ≠ 0)

/-- ALLRED (11 R286, R287). -/
def execAllred (st : StallCode) (d a : XReg) (s : State) : Host.Outcome State Fault Refusal :=
  .next (s.lateAfter (engineIssue
    { word := encode (.allred st d a), stall := st, reads := blockReads a } d 1 4
    (fun s => s.refuseCopy (collectiveRefused true (s.blockOf a)) 4 1 ((s.blockOf a).getD 1 0)
      (((s.blockOf a).getD 2 0 &&& 0xFFFF#64) + 1))
    (fun s => (s.blockOf a).getD 3 0) (fun s => (s.blockOf a).getD 2 0) (fun s => s.blockOf a) s))

/-- BCASTC (11 R286, R287). -/
def execBcastc (st : StallCode) (d a : XReg) (s : State) : Host.Outcome State Fault Refusal :=
  .next (s.lateAfter (engineIssue
    { word := encode (.bcastc st d a), stall := st, reads := blockReads a } d 1 5
    (fun s => s.refuseCopy (collectiveRefused false (s.blockOf a)) 5 1 ((s.blockOf a).getD 1 0)
      (((s.blockOf a).getD 2 0 &&& 0xFFFF#64) + 1))
    (fun s => (s.blockOf a).getD 3 0) (fun s => (s.blockOf a).getD 2 0) (fun s => s.blockOf a) s))

/-- INBDQ (11 R274): the record's words, and an acquire of the command's accesses. -/
def execInbdq (st : StallCode) (d : XReg) (s : State) : Host.Outcome State Fault Refusal :=
  let q : Issue := { word := encode (.inbdq st d), stall := st,
                     writes := if d = 0 then [] else blockReads d }
  .next (s.issue q fun s =>
    match s.tile.inbox with
    | [] => s.stay 0
    | r :: rest =>
      let s := (s.onTile fun t => { t with inbox := rest }).acquire
      (if d = 0 then s
       else (((s.commitX d r.w0).commitX (d + 1) r.w1).commitX (d + 2) r.w2).commitX (d + 3)
         r.w3).finish q)

/-- INBPEEK (11 R275). -/
def execInbpeek (st : StallCode) (d : XReg) (s : State) : Host.Outcome State Fault Refusal :=
  let q : Issue := { word := encode (.inbpeek st d), stall := st, writes := [.x d] }
  .next (s.issue q fun s =>
    (s.commitX d (BitVec.ofNat 64 s.tile.inbox.length)).finish q)

/-- INBCFG (11 R276). -/
def execInbcfg (st : StallCode) (a b : XReg) (s : State) : Host.Outcome State Fault Refusal :=
  let q : Issue := { word := encode (.inbcfg st a b), stall := st, reads := [.x a, .x b] }
  .next (s.issue q fun s =>
    let v := s.readX a
    let c := s.readX b
    let th := (slice v 8 8).toNat
    if v &&& ~~~0xFF07#64 ≠ 0 ∨ th = 0 ∨ 32 < th ∨ (bitAt c 0 ∧ slice c 1 2 ≠ 0) then
      s.raise ⟨.engfault, engTval true 2 8 3 s.tile.nextSeq, none⟩
    else
      (s.onTile fun t => { t with
        inbcntLevel := t.level
        cr := { t.cr with
          inbctl := (t.cr.inbctl &&& ~~~0xFF07#64) ||| v
          inbcnta := c &&& ~~~6#64 } }).finish q)

/-- UIRET (11 R292): ILLOP outside a handler; the replay of 04 R80 resumes. -/
def execUiret (s : State) : Host.Outcome State Fault Refusal :=
  let q : Issue := { word := s.withStall (encode .uiret), serial := true,
                     illegal := fun s => !s.tile.inh }
  .next (s.issue q fun s =>
    let s := s.onTile fun t => { t with
      cr := { t.cr with inbctl := setSlice t.cr.inbctl 4 1 0#1 } }
    (s.finishAt q s.tile.cr.uepc).resumeFrame)

/-! ### Steps of the engines: tile `arg.tile`, engine `arg.n₁` -/

/-- CPY_SECTOR_WRITE: the copy engine writes one destination sector (11 R277). -/
def execCpySectorWrite (s : State) : Host.Outcome State Fault Refusal :=
  .next (s.engineWork s.arg.tile 0 none)

/-- The gang of a tile's hart is stopped, saved or held. -/
def State.gangStopped (s : State) (n : Nat) : Bool :=
  match (s.getTile n).place with
  | none => false
  | some p => s.gangs.any fun g => g.lid == p.lid && g.idx == p.gang && g.state != .running

/-- The clock of a command's wait for other members stands still while its gang is pre-empted, from
the stop to the resume (11 R285). -/
def Command.resumeClock (stopped cc : Nat) (c : Command) : Command :=
  if c.engine = 2 then c
  else { c with since := if c.since ≤ stopped then c.since + (cc - stopped) else cc }

/-- A command that waits for other members of its set. -/
def Command.grouped (c : Command) : Bool :=
  c.ended.isNone && (c.isRing || c.engine == 1) && c.awaits

/-- The oldest command of a list of harts that belongs to a member set, for each hart that has
issued one, with where it stands. -/
def State.issued (s : State) (ms : List Nat) (key : Nat × Nat) : List (Nat × Command) :=
  ms.filterMap fun m => (s.holders m).findSome? fun h =>
    ((s.getTile h).cmds.find? fun c => c.grouped && c.setKey == key).map fun c => (h, c)

/-- COLLECTIVE_TIMEOUT: a member of the set of the RROT or collective that the hart has issued has
not issued its own 2^24 cc after the first one; `flag` says so of a member on another device. Where
the hart has issued none, `flag` says that its domain gang's members on other devices have given up
(11 R285, log 57). -/
def execCollectiveTimeout (s : State) : Host.Outcome State Fault Refusal :=
  let n := s.arg.tile
  match (s.getTile n).cmds.find? fun c => c.grouped && c.engine == s.arg.n₁ with
  | none => .next (if s.arg.flag && s.arg.n₁ == 1 && s.farMembers n 2 then
      s.modTile n fun t => { t with late := t.late ++ [(1, 2)] } else s)
  | some c =>
    let ms := if c.engine = 1 then s.members n c.gsel else s.ringTiles n c.mask
    let l := s.issued ms c.setKey
    let far := s.arg.flag && c.engine == 1 && s.farMembers n c.gsel && !(l.any (·.2.raised))
    let due := l.any fun p => decide (p.2.since + 2 ^ 24 ≤ s.cc)
    if (decide (l.length < ms.length) || far) && due && !(ms.any s.gangStopped) then
      let missing := ms.filter fun m => !(l.any fun p => s.ownerHart p.1 == m)
      .next (missing.foldl (fun s m => s.modTile m fun t => { t with late := t.late ++ [c.setKey] })
        (s.endAll l 1 5))
    else .next s

/-- A member of an RROT or collective in another context than the killed one, `ts` being the killed
harts: its command ends with STATUS 2 (11 R285). -/
def State.discardColls (s : State) (ts : List Nat) : State :=
  (s.tiles.filter fun p => !ts.contains p.1).foldl (fun s p =>
    p.2.cmds.foldl (fun s c =>
      let ms := if c.engine = 1 then s.members p.1 c.gsel else s.ringTiles p.1 c.mask
      if c.ended.isNone && (c.isRing || c.engine == 1) && ms.any ts.contains then
        s.setCmd p.1 (c.endWith 2 0 0 0)
      else s) s) s

end Sys2Proof.Machine
end

