-- ==== Sys2Proof/Machine/Burin.lean ====
section
/-! DEFINITION. The Burin engine and its search trees (12). -/
namespace Sys2Proof.Machine

/-! ### Accesses of the engine (12 R296) -/

/-- What an engine's step has come to: a value, or why an access of it is not performed. -/
abbrev Tried (α : Type) := State × Except EngStop α

/-- A step that goes on with the value of another. -/
def Tried.bind {α β : Type} (x : Tried α) (f : State → α → Tried β) : Tried β :=
  match x with
  | (s, .ok a) => f s a
  | (s, .error e) => (s, .error e)

/-- The checks of an address of a tree line: it translates, readable and writable, and lies in the
HBM of the device; any other translatable address is REASON 16 (12 R296). -/
def State.treeCheck (s : State) (g : EngineAgent) (va : Nat) : Except AddrFail Xlat :=
  match s.translateAt 2048 g.ctx g.trbase g.level va .atomic with
  | .error e => .error e
  | .ok x =>
    if !(s.isLocal x.pa && regionOf (localAddr x.pa) == .hbm) || s.unmappedAt x.pa then
      .error ⟨reasonENGTARGET, 0, false⟩
    else match x.poisonFail with
      | some e => .error e
      | none => .ok x

/-- A tree line ready for an atomic at its home: its local address. -/
def State.treeLine (s : State) (g : EngineAgent) (va : Word) : Tried Nat :=
  match s.engineReach g true 3 va.toNat none fun s => s.treeCheck g va.toNat with
  | (s, .error e) => (s, .error e)
  | (s, .ok (_, la)) => (s.recall (lineOf la), .ok la)

/-- The first `k` words of a tree line, read at its home; errors of its sectors are found, and with
`defer` the correction of one parks the access (11 R283, log 6). -/
def State.treeRead (s : State) (g : EngineAgent) (va : Word) (k : Nat) : Tried (Nat × List Word) :=
  (s.treeLine g va).bind fun s la =>
    let secs := List.range ((k + 7) / 8)
    let corrected := s.choice.defer && secs.any fun i =>
      s.injected.any fun p => p.1 == sectorOf la + i && !p.2
    let s := secs.foldl (fun s i => s.detect (sectorOf la + i)) s
    if corrected then (s, .error (.park .retry (lineOf la)))
    else match secs.find? fun i => s.lost (sectorOf la + i) with
    | some i => (s.reportLost g.ctx (la + 64 * i),
        .error (.fail ⟨reasonUE, 0, false⟩ (va.toNat + 64 * i) 3))
    | none => (s, .ok (la, (List.range k).map fun j => BitVec.ofNat 64 (s.readMem (la + 8 * j) 8)))

/-- The byte of the other tile of a pair that stands where an address in the range of tile `n` does:
a write into the range is made in both (13 R340). -/
def State.twinLa (s : State) (n la : Nat) : Option Nat :=
  match regionOf la, s.pairOf n with
  | .window k off, some m =>
    if k = s.homeTile n then some (0x10000000000 + s.homeTile m * 0x400000 + off) else none
  | _, _ => none

/-- Words of a tree line written at its home; one that covers byte 127 of a mailbox line is a
trigger (15 R391). -/
def State.treeWrite (s : State) (g : EngineAgent) (la : Nat) (l : List (Nat × Word)) : State :=
  let put (s : State) (la : Nat) : State :=
    l.foldl (fun s p => s.writeMem g.ctx (la + 8 * p.1) 8 p.2.toNat) s
  let s := ((put s la).modTile g.tile (·.dropStale (lineOf la))).mailboxTriggers
    (l.map fun p => (la + 8 * p.1, 8))
  match s.twinLa g.tile la with
  | some la' => put s la'
  | none => s

/-! ### Node lines and headers (12 R297, R298) -/

/-- STATE of a node: 0 UNEXPANDED, 1 EXPANDING, 2 EXPANDED, 3 TERMINAL. -/
def nodeState (ws : List Word) : Nat := (slice (ws.getD 1 0) 40 2).toNat
def nodeCount (ws : List Word) : Nat := (slice (ws.getD 1 0) 32 8).toNat
def nodeVl (ws : List Word) : Nat := (slice (ws.getD 1 0) 0 16).toNat
def nodeDepth (ws : List Word) : BitVec 16 := slice (ws.getD 1 0) 48 16

def putState (w : Word) (st : Nat) : Word := setSlice w 40 2 (BitVec.ofNat 2 st)
def putVl (w : Word) (v : Nat) : Word := setSlice w 0 16 (BitVec.ofNat 16 v)

/-- The header address of a command. -/
def Command.header (c : Command) : Word := c.ops.getD 0 0

/-- VALID of a header. -/
def headerValid (ws : List Word) : Bool := bitAt (ws.getD 2 0) 15

/-- The header of a command, read; a command other than BCFG and BROOT fails on one that is not
valid (12 R298). -/
def State.readHeader (s : State) (g : EngineAgent) (c : Command) : Tried (Nat × List Word) :=
  s.treeRead g c.header 16

/-- A command ended with a code and its words 2 and 3 (12 R309). -/
def Command.endBurin (c : Command) (code : Nat) (word2 word3 : Word) : Command :=
  { (c.endWith (if code = 0 then 0 else 1) code 0 0) with word2 := word2, word3 := word3 }

/-- The command as its step leaves it: advanced, waiting or parked at a home, or ended by a failed
access. -/
def concludeCmd (n : Nat) (c : Command) (x : Tried Command) : State :=
  match x with
  | (s, .ok c') => s.setCmd n c'.freed
  | (s, .error (.fail e va kind)) =>
    let c := c.failAt e va kind
    s.setCmd n { c with word3 := BitVec.ofNat 64 va }
  | (s, .error e) => s.stopCmd n c e

/-! ### Twins (13 R340) -/

/-- BURINPOOL on the issuing hart (16 R460). -/
def State.raisePool (s : State) (n : Nat) : State :=
  s.modTile n fun t => { t with cr := { t.cr with ipend := setSlice t.cr.ipend 6 1 1#1 } }

/-- What the routers hash of a command of hart `n`, whose other tile is `m`: a buffer in the pair's
range by its offset. -/
def State.burinDigest (s : State) (n m : Nat) (c : Command) : List Nat :=
  let buffer : Bool := (c.kind == 2 || c.kind == 3) &&
    (match s.engineCheck n c engRead (c.ops.getD 2 0).toNat with
     | .ok x => s.insidePair n m x.pa
     | .error _ => false)
  c.kind :: c.tag.toNat :: c.ops.zipIdx.map fun p =>
    if buffer && p.2 == 2 then p.1.toNat % 0x80000 else p.1.toNat

/-- The command of the other tile of a pair comes as far as that of tile `n` has. -/
def State.mirrorCmd (s : State) (n m : Nat) (c d : Command) : State :=
  match ((s.getTile n).onEngine 2).find? (·.seq == c.seq) with
  | none => s
  | some c' =>
    let s := s.setCmd m { c'.freed with
      seq := d.seq, ctx := d.ctx, level := d.level, ops := d.ops
      descents := c'.descents.map fun (x : Descent) => { x with parked := none } }
    if c'.raised && !d.raised then s.raisePool m else s

/-- A step `f` of the Burin engine for a command of hart `n`. With TWIN every write of a tree leaves
the pair: once both tiles have issued the command the primary's is performed, and the twin's takes
its results. Commands that differ write nothing, and what their records hold is free (13 R340,
log 38). -/
def State.burinFor (s : State) (n : Nat) (c : Command) (f : State → State) : State :=
  match s.pairOf n with
  | none => f s
  | some m =>
    if (s.getTile n).member.twin then s
    else match s.current m 2 with
      | none => s
      | some d =>
        if sameCopy (s.burinDigest n m c) (s.burinDigest m n d) then (f s).mirrorCmd n m c d
        else
          let void (c : Command) : Command :=
            { (c.endWith 0 0 0 0) with
              word2 := Config.freeWord s.fresh, word3 := Config.freeWord (s.fresh + 1) }
          ((({ s with fresh := s.fresh + 2 }).setCmd n (void c)).setCmd m (void d)).mismatch n

/-! ### The pool (12 R299, R305) -/

/-- A search of the pool for `k` lines, at most `fuel` extents on: the base found, the words to
write, and the new POOLHEAD and POOLTAIL. `prev` is the extent before, with its line. -/
def State.poolSearch (s : State) (g : EngineAgent) (k : Nat) (head tail : Word) :
    Nat → Option (Word × Nat) → Word → Tried (Option (Word × List (Nat × Nat × Word) × Word × Word))
  | 0, _, _ => (s, .ok none)
  | fuel + 1, prev, a =>
    if a = 0 then (s, .ok none)
    else
      (s.treeRead g a 2).bind fun s r =>
        let (la, ws) := r
        let next := ws.getD 0 0
        let count := (ws.getD 1 0).toNat
        if count < k then s.poolSearch g k head tail fuel (some (a, la)) next
        else
          let link (v : Word) : List (Nat × Nat × Word) × Word :=
            match prev with
            | some (_, pl) => ([(pl, 0, v)], head)
            | none => ([], v)
          if count = k then
            let (w, h) := link next
            let before : Word := match prev with
              | some (p, _) => p
              | none => 0
            (s, .ok (some (a, w, h, if tail = a then before else tail)))
          else
            let a' := a + BitVec.ofNat 64 (128 * k)
            (s.treeLine g a').bind fun s la' =>
              let (w, h) := link a'
              (s, .ok (some (a, w ++ [(la', 0, next), (la', 1, BitVec.ofNat 64 (count - k))], h,
                if tail = a then a' else tail)))

/-- The allocation of `k` lines, with the header as read: the base, or none where the pool is
exhausted. Every change of the pool is one step. -/
def State.allocate (s : State) (g : EngineAgent) (k hla : Nat) (h : List Word) : Tried (Option Word) :=
  (s.poolSearch g k (h.getD 3 0) (h.getD 4 0) 4 none (h.getD 3 0)).bind fun s r =>
    match r with
    | none => (s, .ok none)
    | some (base, ws, head, tail) =>
      let s := ws.foldl (fun s p => s.treeWrite g p.1 [(p.2.1, p.2.2)]) s
      let s := s.treeWrite g hla [(3, head), (4, tail), (5, h.getD 5 0 - BitVec.ofNat 64 k)]
      (s, .ok (some base))

/-- An extent put in front of the pool (BPOOL, and the return of lines by a failed BEXP). -/
def State.poolPush (s : State) (g : EngineAgent) (hla : Nat) (h : List Word) (a count : Word) :
    Tried Word :=
  (s.treeLine g a).bind fun s la =>
    let s := s.treeWrite g la [(0, h.getD 3 0), (1, count)]
    let lines := h.getD 5 0 + count
    (s.treeWrite g hla [(3, a), (4, if h.getD 4 0 = 0 then a else h.getD 4 0), (5, lines)],
      .ok lines)

/-- The place of a header in memory, by which commands of one tree know one another. -/
def State.headerPlace (s : State) (g : EngineAgent) (va : Word) : Option Nat :=
  match s.treeCheck g va.toNat with
  | .ok x => some (localAddr x.pa)
  | .error _ => none

/-! ### BEXP (12 R304, R305) -/

/-- k of a BEXP. -/
def Command.children (c : Command) : Nat := (slice (c.ops.getD 3 0) 0 9).toNat

/-- The images of the children, 16 words each, and the command with what it has read of them. -/
def State.readImages (s : State) (n : Nat) (c : Command) (pass : Pass) (k : Nat) :
    State × Command × Except EngStop (List Word) :=
  match s.readSource n c pass (pieces (c.ops.getD 2 0).toNat (2 * k + 2) (128 * k)) with
  | (s, c, .ok v) =>
    (s, c, .ok ((List.range (16 * k)).map fun j => BitVec.ofNat 64 (v / 2 ^ (64 * j))))
  | (s, c, .error e) => (s, c, .error e)

/-- A BEXP before its lines are allocated: the leaf checked. It ends, or goes on with the header and
the leaf's depth. -/
def State.bexpLeaf (s : State) (n : Nat) (c : Command) :
    Tried (Command ⊕ (Nat × List Word × Nat)) :=
  let g := s.agent n c
  (s.readHeader g c).bind fun s r =>
    let (hla, h) := r
    if !headerValid h then (s, .ok (.inl (c.endBurin 6 0 0)))
    else (s.treeRead g (c.ops.getD 1 0) 4).bind fun s r =>
      let (lla, ws) := r
      if nodeState ws ≠ 1 then (s, .ok (.inl (c.endBurin 7 0 0)))
      else if c.children = 0 then
        let w1 := setSlice (putState (ws.getD 1 0) 3) 32 8 0#8
        let s := s.treeWrite g lla [(1, w1), (2, 0)]
        (s.treeWrite g hla [(10, h.getD 10 0 + 1)], .ok (.inl (c.endBurin 0 0 0)))
      else (s, .ok (.inr (hla, h, (nodeDepth ws).toNat)))

/-- A BEXP that finds the pool exhausted parks in the fault queue of the header's home, and keeps
its place when it parks again (12 R305). -/
def State.parkPool (s : State) (n : Nat) (c : Command) (hla : Nat) : State :=
  let s := s.parkCmd n { c with buffer := [] } .pool (lineOf hla)
  match (s.getTile n).cmds.find? fun x => x.seq == c.seq && x.engine == c.engine with
  | some c' =>
    if c'.waiting = some .pool ∧ !c'.raised then (s.setCmd n { c' with raised := true }).raisePool n
    else s
  | none => s

/-- The first part of a BEXP: the leaf checked, the images read, and the lines allocated. A failure
here leaves word 2 of the record 0: no base has been allocated (DEDUCED, log 35). -/
def State.bexpBegin (s : State) (n : Nat) (c : Command) (pass : Pass) : State :=
  match s.bexpLeaf n c with
  | (s, .error e) => concludeCmd n c (s, .error e)
  | (s, .ok (.inl c')) => concludeCmd n c (s, .ok c')
  | (s, .ok (.inr (hla, h, depth))) =>
    match s.readImages n c pass c.children with
    | (s, c, .error e) => concludeCmd n c (s, .error e)
    | (s, c, .ok imgs) =>
      match s.allocate (s.agent n c) c.children hla h with
      | (s, .error e) => concludeCmd n c (s, .error e)
      | (s, .ok none) => s.parkPool n c hla
      | (s, .ok (some base)) => s.setCmd n { c.freed with
          cursor := base, desc := imgs, row := depth, pos := 1, buffer := [] }

/-- Child `j` of a BEXP written; a write that fails returns the lines to the pool, and word 2 of the
record holds their base (12 R304). No rule says what a failure of that return does: the lines are
lost, and the record gives the first failure (DESIGN CHOICE, log 35). -/
def State.bexpChild (s : State) (n : Nat) (c : Command) (j : Nat) : State :=
  let g := s.agent n c
  let k := c.children
  match s.treeLine g (c.cursor + BitVec.ofNat 64 (128 * j)) with
  | (s, .ok la) =>
    let img (i : Nat) : Word := c.desc.getD (16 * j + i) 0
    let w1 : Word := BitVec.ofNat 16 (min (c.row + 1) 65535) ++ 0#16 ++ slice (img 1) 16 16 ++ 0#16
    let s := s.treeWrite g la ([(0, 0), (1, w1), (2, 0), (3, c.ops.getD 1 0), (4, 0), (5, 0), (6, 0),
      (7, 0)] ++ (List.range 8).map fun i => (8 + i, img (8 + i)))
    ((s.cleanse (sectorOf la)).cleanse (sectorOf la + 1)).setCmd n { c.freed with pos := c.pos + 1 }
  | (s, .error (.fail e va kind)) =>
    (match (s.readHeader g c).bind fun s r =>
        s.poolPush g r.1 r.2 c.cursor (BitVec.ofNat 64 k) with
    | (s, .error .wait) => s.stopCmd n c .wait
    | (s, .error (.park p line)) => s.stopCmd n c (.park p line)
    | (s, .error (.fail _ _ _)) | (s, .ok _) =>
      concludeCmd n { c with word2 := c.cursor } (s, .error (.fail e va kind)))
  | (s, .error e) => s.stopCmd n c e

/-- The leaf becomes EXPANDED after every child write (12 R304). No rule says what a failure of this
access does: the leaf stays EXPANDING, the lines are lost, and word 2 of the record holds their
base; one of the header's leaves EXPN as it was (DESIGN CHOICE, log 35). -/
def State.bexpCommit (s : State) (n : Nat) (c : Command) : State :=
  let g := s.agent n c
  concludeCmd n { c with word2 := c.cursor } ((s.treeRead g (c.ops.getD 1 0) 4).bind fun s r =>
    let (lla, ws) := r
    let w1 := setSlice (putState (ws.getD 1 0) 2) 32 8 (BitVec.ofNat 8 c.children)
    match s.readHeader g c with
    | (s, .ok (hla, h)) =>
      let s := s.treeWrite g lla [(1, w1), (2, c.cursor)]
      (s.treeWrite g hla [(10, h.getD 10 0 + 1)], .ok (c.endBurin 0 c.cursor 0))
    | (s, .error (.fail e va kind)) =>
      (s.treeWrite g lla [(1, w1), (2, c.cursor)], .error (.fail e va kind))
    | (s, .error e) => (s, .error e))

/-- The next part of a BEXP. -/
def State.bexpWork (s : State) (n : Nat) (c : Command) : State :=
  if c.pos = 0 then (if c.waiting = some .pool then s else s.bexpBegin n c none)
  else if c.pos ≤ c.children then s.bexpChild n c (c.pos - 1)
  else s.bexpCommit n c

/-- A parked BEXP of a tile is replayed (12 R305). -/
def State.bexpRetry (s : State) (n seq : Nat) : State :=
  match (s.getTile n).cmds.find? fun c => c.engine == 2 && c.seq == seq with
  | some c =>
    if c.waiting = some .pool then
      s.burinFor n c fun s => s.bexpBegin n { c with waiting := none } none
    else s
  | none => s

/-- The parked BEXPs of a header replay in the order of their arrival (12 R305). -/
def State.replayPool (s : State) (place : Nat) : State :=
  let mine := s.tiles.flatMap fun p => (p.2.cmds.filter fun c =>
    c.engine == 2 && c.kind == 3 && c.waiting == some .pool && c.ended.isNone &&
      s.headerPlace (s.agent p.1 c) c.header == some place).map fun c => (c.arrival, p.1, c.seq)
  (sortBy (fun a b => decide (a.1 ≤ b.1)) mine).foldl (fun s p => s.bexpRetry p.2.1 p.2.2) s

/-! ### Header commands (12 R308, R309) -/

/-- BCFG: header words 1 and 2, VALID kept. -/
def State.bcfgWork (s : State) (n : Nat) (c : Command) : State :=
  let g := s.agent n c
  concludeCmd n c ((s.readHeader g c).bind fun s r =>
    let (hla, h) := r
    let w2 := setSlice (c.ops.getD 2 0) 15 1 (slice (h.getD 2 0) 15 1)
    (s.treeWrite g hla [(1, c.ops.getD 1 0), (2, w2)], .ok (c.endBurin 0 0 0)))

/-- OUT or RECLAIM of a header is not zero (12 R308). -/
def treeBusy (h : List Word) : Bool := h.getD 6 0 != 0 || h.getD 7 0 != 0

/-- BROOT: a fresh root, whose reserved bits [47:42] are kept (12 R297), and a valid header. -/
def State.brootWork (s : State) (n : Nat) (c : Command) : State :=
  let g := s.agent n c
  concludeCmd n c ((s.readHeader g c).bind fun s r =>
    let (hla, h) := r
    if treeBusy h then (s, .ok (c.endBurin 9 0 0))
    else (s.treeRead g (c.ops.getD 1 0) 4).bind fun s r =>
      let kept : Word := r.2.getD 1 0 &&& 0xFC0000000000#64
      let s := s.treeWrite g r.1 [(0, 0), (1, kept), (2, 0), (3, 0)]
      let w2 : Word := (h.getD 2 0 &&& 0x17F#64) ||| 0x8000#64
      let rest := (List.range 13).map fun i => (i + 3, (0 : Word))
      (s.treeWrite g hla ((0, c.ops.getD 1 0) :: (2, w2) :: rest), .ok (c.endBurin 0 0 0)))

/-- BPOOL: an extent at the head of the pool, and the replay of parked BEXPs. -/
def State.bpoolWork (s : State) (n : Nat) (c : Command) : State :=
  let g := s.agent n c
  let x : Tried (Option Nat × Command) := (s.readHeader g c).bind fun s r =>
    let (hla, h) := r
    if !headerValid h then (s, .ok (none, c.endBurin 6 0 0))
    else (s.poolPush g hla h (c.ops.getD 1 0) (c.ops.getD 2 0)).bind fun s lines =>
      (s, .ok (some hla, c.endBurin 0 lines 0))
  match x with
  | (s, .ok (some _, c')) =>
    let s := concludeCmd n c (s, .ok c')
    (match s.headerPlace g c.header with
     | some p => s.replayPool p
     | none => s)
  | (s, .ok (none, c')) => concludeCmd n c (s, .ok c')
  | (s, .error e) => concludeCmd n c (s, .error e)

/-- The child blocks of discarded nodes in pre-order (12 R308, rule 4). -/
def State.discarded (s : State) (g : EngineAgent) :
    Nat → List Word → List (Word × Nat) → Tried (List (Word × Nat))
  | 0, _, acc => (s, .ok acc)
  | _, [], acc => (s, .ok acc)
  | fuel + 1, m :: rest, acc =>
    (s.treeRead g m 4).bind fun s r =>
      let k := nodeCount r.2
      let base := r.2.getD 2 0
      if k = 0 then s.discarded g fuel rest acc
      else s.discarded g fuel
        ((List.range k).map (fun j => base + BitVec.ofNat 64 (128 * j)) ++ rest)
        (acc ++ [(base, k)])

/-- BREROOT: the new root, and the reclaim of everything else. -/
def State.brerootWork (s : State) (n : Nat) (c : Command) : State :=
  let g := s.agent n c
  let new := c.ops.getD 1 0
  let x : Tried (Command × List (Word × Nat)) := (s.readHeader g c).bind fun s r =>
    let (hla, h) := r
    let root := h.getD 0 0
    if !headerValid h then (s, .ok (c.endBurin 6 0 0, []))
    else if treeBusy h then (s, .ok (c.endBurin 9 0 0, []))
    else (s.treeRead g root 4).bind fun s r =>
      let base := r.2.getD 2 0
      let k := nodeCount r.2
      let idx := ((List.range k).find? fun j => base + BitVec.ofNat 64 (128 * j) == new).getD k
      (s.treeRead g new 4).bind fun s r =>
        if r.2.getD 3 0 ≠ root ∨ k ≤ idx then (s, .ok (c.endBurin 8 0 0, []))
        else
          let sibs := ((List.range k).filter (· != idx)).map fun j => base + BitVec.ofNat 64 (128 * j)
          (s.discarded g (2 ^ 32) sibs []).bind fun s blocks =>
            let extents := ([(root, 1), (base, idx), (new + 128, k - idx - 1)] ++ blocks).filter
              fun e => e.2 != 0
            let total := BitVec.ofNat 64 (extents.foldl (fun a e => a + e.2) 0)
            let s := s.treeWrite g r.1 [(3, 0)]
            (s.treeWrite g hla [(0, new), (7, total)], .ok (c.endBurin 0 total 0, extents))
  match x with
  | (s, .ok (c', extents)) =>
    let s := s.setCmd n c'
    if extents = [] then s
    else { s with reclaims := s.reclaims ++
        [⟨n, c.ctx, c.level, g.trbase, c.header, c.seq, extents, none⟩] }
  | (s, .error e) => concludeCmd n c (s, .error e)

/-! ### BBACK and BDROP (12 R306, R307) -/

/-- max(v − 1, 0). -/
def lowered (v : Nat) : Nat := v - 1

/-- The start of a backup or a drop: the header is valid, and a node that is UNEXPANDED takes no
backup. -/
def State.climbBegin (s : State) (n : Nat) (c : Command) : State :=
  let g := s.agent n c
  concludeCmd n c ((s.readHeader g c).bind fun s r =>
    if !headerValid r.2 then (s, .ok (c.endBurin 6 0 0))
    else (s.treeRead g (c.ops.getD 1 0) 4).bind fun s w =>
      if c.kind = 4 ∧ nodeState w.2 = 0 then (s, .ok (c.endBurin 7 0 0))
      else (s, .ok { c with
        started := true, waiting := none, cursor := c.ops.getD 1 0,
        value := slice (c.ops.getD 2 0) 0 32, row := (slice (r.2.getD 2 0) 8 1).toNat }))

/-- One node of a backup or a drop, or, after the root, the header. -/
def State.climbStep (s : State) (n : Nat) (c : Command) : State :=
  let g := s.agent n c
  let back := c.kind == 4
  let c0 := { c with word2 := BitVec.ofNat 64 c.pos }
  if c.cursor = 0 ∧ c.pos ≠ 0 then
    concludeCmd n c0 ((s.readHeader g c).bind fun s r =>
      let h := r.2
      let out := if h.getD 6 0 = 0 then 0 else h.getD 6 0 - 1
      (s.treeWrite g r.1 ((6, out) :: if back then [(11, h.getD 11 0 + 1)] else []),
        .ok (c.endBurin 0 (BitVec.ofNat 64 c.pos) 0)))
  else
    concludeCmd n c0 ((s.treeRead g c.cursor 4).bind fun s r =>
      let (la, ws) := r
      let w0 := ws.getD 0 0
      let w1 := ws.getD 1 0
      let w1 := if c.pos = 0 ∧ nodeState ws = 1 then putState w1 0 else w1
      let w1 := putVl w1 (lowered (nodeVl ws))
      let visits := BitVec.ofNat 32 (min ((slice w0 0 32).toNat + 1) (2 ^ 32 - 1))
      let sum := BitVec.ofNat 32 (fAdd .f32 arrayMode (slice w0 32 32).toNat c.value.toNat).1
      let s := s.treeWrite g la (if back then [(0, sum ++ visits), (1, w1)] else [(1, w1)])
      let parent := ws.getD 3 0
      let c := { c with
        pos := c.pos + 1, waiting := none, cursor := parent
        value := if c.row = 1 then c.value ^^^ 0x80000000#32 else c.value }
      (s, .ok (if parent ≠ 0 ∧ c.pos = 65536 then c.endBurin 10 (BitVec.ofNat 64 c.pos) 0 else c)))

def State.climbWork (s : State) (n : Nat) (c : Command) : State :=
  if c.started then s.climbStep n c else s.climbBegin n c

/-! ### Descents (12 R300–R303) -/

/-- A product, sum and quotient in F32 at RNE, no flag kept (12 R300). -/
def f32mul (a b : BitVec 32) : BitVec 32 := BitVec.ofNat 32 (fMul .f32 arrayMode a.toNat b.toNat).1
def f32add (a b : BitVec 32) : BitVec 32 := BitVec.ofNat 32 (fAdd .f32 arrayMode a.toNat b.toNat).1
def f32sub (a b : BitVec 32) : BitVec 32 := f32add a (b ^^^ 0x80000000#32)
def f32div (a b : BitVec 32) : BitVec 32 := BitVec.ofNat 32 (fDiv .f32 arrayMode a.toNat b.toNat).1
def f32sqrt (a : BitVec 32) : BitVec 32 := BitVec.ofNat 32 (fSqrt .f32 arrayMode a.toNat).1
def f32ofNat (k : Nat) : BitVec 32 := BitVec.ofNat 32 (roundFin .f32 arrayMode false k 0).1

/-- The score of a child (12 R300). -/
def childScore (cs vloss : BitVec 32) (ws : List Word) : BitVec 32 :=
  let w0 := ws.getD 0 0
  let v := f32ofNat (nodeVl ws)
  let den := f32add (f32ofNat (slice w0 0 32).toNat) v
  let q := if den = 0 then 0#32 else f32div (f32sub (slice w0 32 32) (f32mul v vloss)) den
  let prior : BitVec 32 := slice (ws.getD 1 0) 16 16 ++ 0#16
  f32add q (f32div (f32mul cs prior) (f32add 0x3F800000#32 den))

/-- The better of the best so far and child `j` (12 R300). -/
def betterChild (best : Option (Nat × BitVec 32)) (j : Nat) (score : BitVec 32) :
    Option (Nat × BitVec 32) :=
  let v (x : BitVec 32) : FVal := ElemType.f32.fmt.value x.toNat
  if (v score).isNaN then best
  else match best with
    | none => some (j, score)
    | some (_, b) => if FVal.lt false (v b) (v score) then some (j, score) else best

/-- D, B and the batch of an entry. -/
def Command.total (c : Command) : Nat := (c.ops.getD 1 0).toNat
def Command.batch (c : Command) : Nat := (slice (c.desc.getD 2 0) 0 7).toNat

/-- An F32 image that the engine refuses: a NaN, an infinity, or a negative other than −0. -/
def f32Refused (x : BitVec 32) : Bool :=
  decide (slice x 23 8 = 0xFF#8) || (bitAt x 31 && x != 0x80000000#32)

/-- The acceptance of a BDESC reads and checks the header (12 R298). -/
def State.bdescBegin (s : State) (n : Nat) (c : Command) : State :=
  let g := s.agent n c
  let first := c.ops.getD 2 0
  concludeCmd n c ((s.readHeader g c).bind fun s r =>
    let h := r.2
    let b := (slice (h.getD 2 0) 0 7).toNat
    if !headerValid h then (s, .ok (c.endBurin 6 0 first))
    else if b = 0 ∨ 64 < b ∨ f32Refused (slice (h.getD 1 0) 0 32) ∨
        f32Refused (slice (h.getD 1 0) 32 32) then (s, .ok (c.endBurin 2 0 first))
    else (s, .ok { c with started := true, waiting := none, desc := h }))

/-- A descent still occupies a walker. -/
def Descent.busy (d : Descent) : Bool := d.entry.isNone

/-- Walkers busy on a die (12 R295, R296). -/
def State.walkersBusy (s : State) (die : Nat) : Nat :=
  (s.tiles.flatMap fun p => if dieOf (s.homeTile p.1) = die then
      p.2.cmds.flatMap fun c => c.descents.filter Descent.busy
    else []).length

/-- A walker is free for a descent of hart `n`; with TWIN one for each tile of the pair. -/
def State.walkerFree (s : State) (n : Nat) : Bool :=
  let die := dieOf (s.homeTile n)
  decide (s.walkersBusy die < 16) && match s.pairOf n with
    | none => true
    | some m =>
      let die' := dieOf (s.homeTile m)
      decide (s.walkersBusy die' + (if die' = die then 1 else 0) < 16)

/-- The descent ends ABORTED by an access failure; a removal or an update that failed is skipped
(12 R301). -/
def Descent.abort (d : Descent) (va kind : Nat) (e : AddrFail) : Descent :=
  if d.outcome = some .aborted then d
  else { d with
    outcome := some .aborted, node := BitVec.ofNat 64 va, depth := 0, code := 1, select := none
    fault := some (mfinfoOf e.level 3 kind e.reason) }

/-- A descent begins at the header (12 R301). -/
def State.descentStart (s : State) (n : Nat) (c : Command) : State :=
  let g := s.agent n c
  let d : Descent := ⟨[], c.header, 0, 0, 0, 0, none, none, [], false, 0, none, none, false, none⟩
  match s.readHeader g c with
  | (s, .error (.fail e va k)) =>
    s.setCmd n { c.freed with descents := c.descents ++ [d.abort va k e] }
  | (s, .error e) => s.stopCmd n c e
  | (s, .ok (hla, h)) =>
    let s := s.treeWrite g hla [(6, h.getD 6 0 + 1), (8, h.getD 8 0 + 1)]
    let d := { d with
      node := h.getD 0 0, c := slice (h.getD 1 0) 0 32, vloss := slice (h.getD 1 0) 32 32 }
    s.setCmd n { c.freed with descents := c.descents ++ [d] }

/-- The descent has come to its end: what it has to undo (12 R301). -/
def Descent.finish (d : Descent) (o : DescentEnd) (code : Nat) : Descent :=
  let undo := match o with
    | .collide | .aborted => d.path.reverse
    | .leaf | .terminal => []
  { d with
    outcome := some o, code := code, undo := undo, select := none,
    headerDue := o == .collide || o == .aborted }

/-- The step of a descent at its node (12 R301). With `unsure`, one before it may still take a
virtual loss away: at a node whose VL is 65,535 the descent waits for that (12 R302). -/
def State.nodeStep (s : State) (g : EngineAgent) (d : Descent) (unsure : Bool) : Tried Descent :=
  match s.treeRead g d.node 4 with
  | (s, .error (.fail e va k)) =>
    (s, .ok { (d.abort va k e) with undo := d.path.reverse, headerDue := true })
  | (s, .error e) => (s, .error e)
  | (s, .ok (la, ws)) =>
    let d := { d with depth := nodeDepth ws, steps := d.steps + 1 }
    if nodeState ws = 1 then (s, .ok (d.finish .collide 0))
    else if nodeVl ws = 65535 then
      (if unsure then (s, .error .wait) else (s, .ok (d.finish .aborted 11)))
    else
      let d := { d with path := d.path ++ [d.node] }
      let w1 := putVl (ws.getD 1 0) (nodeVl ws + 1)
      if nodeState ws = 0 then
        (s.treeWrite g la [(1, putState w1 1)], .ok (d.finish .leaf 0))
      else
        let s := s.treeWrite g la [(1, w1)]
        if nodeState ws = 3 ∨ nodeCount ws = 0 then (s, .ok (d.finish .terminal 0))
        else if d.path.length = 65536 then (s, .ok (d.finish .aborted 10))
        else
          let cs := f32mul d.c (f32sqrt (f32ofNat (slice (ws.getD 0 0) 0 32).toNat))
          (s, .ok { d with select := some ⟨nodeCount ws, ws.getD 2 0, cs, 0, none⟩ })

/-- One child read by a choice; after the last one the descent goes on to the child chosen. -/
def State.selectStep (s : State) (g : EngineAgent) (d : Descent) (x : Selection) :
    Tried Descent :=
  match s.treeRead g (x.block + BitVec.ofNat 64 (128 * x.next)) 4 with
  | (s, .error (.fail e va k)) =>
    (s, .ok { (d.abort va k e) with undo := d.path.reverse, headerDue := true })
  | (s, .error e) => (s, .error e)
  | (s, .ok (_, ws)) =>
    let best := betterChild x.best x.next (childScore x.cs d.vloss ws)
    if x.next + 1 < x.count then
      (s, .ok { d with select := some { x with next := x.next + 1, best := best } })
    else
      let j := match best with
        | some (j, _) => j
        | none => 0
      (s, .ok { d with select := none, node := x.block + BitVec.ofNat 64 (128 * j) })

/-- A virtual loss is removed from the last node of the path that still has it. -/
def State.undoStep (s : State) (g : EngineAgent) (d : Descent) (m : Word) (rest : List Word) :
    Tried Descent :=
  match s.treeRead g m 4 with
  | (s, .error (.fail e va k)) => (s, .ok { (d.abort va k e) with undo := rest })
  | (s, .error e) => (s, .error e)
  | (s, .ok (la, ws)) =>
    (s.treeWrite g la [(1, putVl (ws.getD 1 0) (lowered (nodeVl ws)))], .ok { d with undo := rest })

/-- The header takes note of a descent that ended COLLIDE or ABORTED. -/
def State.headerStep (s : State) (g : EngineAgent) (c : Command) (d : Descent) :
    Tried Descent :=
  match s.readHeader g c with
  | (s, .error (.fail e va k)) => (s, .ok { (d.abort va k e) with headerDue := false })
  | (s, .error e) => (s, .error e)
  | (s, .ok (hla, h)) =>
    let coll := if d.outcome = some .collide then [(9, h.getD 9 0 + 1)] else []
    (s.treeWrite g hla ((6, h.getD 6 0 - 1) :: coll), .ok { d with headerDue := false })

/-- The code of an outcome in an entry (12 R301). -/
def DescentEnd.code : DescentEnd → Nat
  | .leaf => 0
  | .collide => 1
  | .terminal => 2
  | .aborted => 3

/-- The entry of a descent written to the leaf buffer (12 R303). -/
def State.entryStep (s : State) (n : Nat) (c : Command) (g : EngineAgent) (i : Nat) (d : Descent)
    (o : DescentEnd) : Tried Descent :=
  let entry : Word := d.node ||| (d.depth.setWidth 64 <<< 48) ||| BitVec.ofNat 64 o.code
  let va := (c.ops.getD 2 0 + BitVec.ofNat 64 (8 * i)).toNat
  match s.engineReach g true 1 va none fun s => s.engineCheck n c engWrite va with
  | (s, .error (.fail e _ _)) => (s, .ok { d with
      entry := some entry, failed := true, fault := some (mfinfoOf e.level 3 1 e.reason) })
  | (s, .error e) => (s, .error e)
  | (s, .ok (x, la)) =>
    let s := s.engineWrite c n x 8 entry.toNat
    (match s.twinLa n la with
     | some la => s.writeMem c.ctx la 8 entry.toNat
     | none => s, .ok { d with entry := some entry })

/-- The descent will leave its virtual losses in place: it has ended LEAF or TERMINAL. -/
def Descent.stays (d : Descent) : Bool := d.outcome == some .leaf || d.outcome == some .terminal

/-- A descent may take its next step: the one before it is a step ahead, or has ended. It chooses a
child only when the one before it has ended or will leave its virtual losses in place, so that the
results are those of one descent after another (12 R302, log 35). -/
def Command.mayStep (c : Command) (i : Nat) (d : Descent) : Bool :=
  d.outcome.isSome || i == 0 || (match c.descents[i - 1]? with
    | none => true
    | some p => p.entry.isSome ||
        (decide (d.steps < p.steps) && (p.stays || (p.outcome.isNone && d.select.isNone))))

/-- A descent before descent `i` may still take virtual losses away (12 R302). -/
def Command.unsure (c : Command) (i : Nat) : Bool :=
  (c.descents.take i).any fun p => !p.stays && (p.outcome.isNone || !p.undo.isEmpty)

/-- The access of descent `i` is parked at a line: it keeps the place that it has there (08 R198,
11 R283). -/
def State.parkDescent (s : State) (n : Nat) (c : Command) (i : Nat) (d : Descent) (p : Parked)
    (line : Nat) : State :=
  let put (s : State) (x : Option (Parked × Nat × Nat)) : State :=
    s.setCmd n { c with descents := setNth c.descents i { d with parked := x } }
  match d.parked.filter (·.2.1 == line) with
  | some (_, _, arrival) => put s (some (p, line, arrival))
  | none =>
    let s := put s none
    if s.faultQueueFull (s.homeOf line) then s
    else put { s with fresh := s.fresh + 1 } (some (p, line, s.fresh))

/-- The next step of descent `i` of a BDESC (12 R301–R303). -/
def State.descentStep (s : State) (n : Nat) (c : Command) (i : Nat) : State :=
  match c.descents[i]? with
  | none => s
  | some d =>
    let (line, arrival) := (d.parked.map (·.2)).getD (0, 0)
    let g := { s.agent n c with line := line, arrival := arrival }
    if d.entry.isSome || !c.mayStep i d then s
    else
      let (s, r) := match d.outcome, d.select with
        | none, none => s.nodeStep g d (c.unsure i)
        | none, some x => s.selectStep g d x
        | some o, _ =>
          match d.undo with
          | m :: rest => s.undoStep g d m rest
          | [] => if d.headerDue then s.headerStep g c d else s.entryStep n c g i d o
      match r with
      | .error (.park p line) => s.parkDescent n c i d p line
      | .error .wait | .error (.fail _ _ _) => s
      | .ok d => s.setCmd n { c with descents := setNth c.descents i { d with parked := none } }

/-- No descent of the command has failed to write its entry, so that new ones begin. -/
def Command.goesOn (c : Command) : Bool := c.descents.all fun d => !d.failed

/-- The descents that a BDESC runs: all of them, or those begun before an entry could not be
written. -/
def Command.last (c : Command) : Nat := if c.goesOn then c.total else c.descents.length

/-- The work of a BDESC: its acceptance, the begin of a descent, or a step of descent `i`. -/
def State.bdescWork (s : State) (n : Nat) (c : Command) (i : Nat) : State :=
  if !c.started then s.bdescBegin n c
  else if i < c.descents.length then s.descentStep n c i
  else if c.descents.length < c.total && c.goesOn &&
    s.walkerFree n then
    s.descentStart n c
  else s

/-- The record of batch `k` (12 R303), and how it ended. -/
def Command.batchRecord (c : Command) (k : Nat) (ds : List Descent) : Record × CmdEnd :=
  let count (o : DescentEnd) : BitVec 8 := BitVec.ofNat 8 (ds.filter (·.outcome == some o)).length
  let bad := ds.find? fun d => d.outcome == some .aborted || d.failed
  let first := c.ops.getD 2 0 + BitVec.ofNat 64 (8 * k * c.batch)
  let code := match bad with
    | none => 0
    | some d => if d.outcome = some .aborted then d.code else 1
  let e : CmdEnd := ⟨if bad.isSome then 1 else 0, code, first, 0, match bad with
    | none => none
    | some d => if code = 1 then d.fault else none⟩
  let w2 : Word := 0#16 ++ count .aborted ++ count .terminal ++ count .collide ++ count .leaf ++
    BitVec.ofNat 8 ds.length ++ BitVec.ofNat 8 k
  let c := { c with word2 := w2, word3 := first }
  (c.record e, e)

/-- The next batch of a BDESC is posted once its entries are written, and every earlier command has
posted its record (11 R267, 12 R295, R303). -/
def State.batchPost (s : State) (n : Nat) (c : Command) : State :=
  let lo := c.batches * c.batch
  let hi := min (lo + c.batch) c.last
  let ds := (c.descents.take hi).drop lo
  let bars (n : Nat) (c : Command) : Bool :=
    ((s.getTile n).onEngine 2).head? != some c || decide (32 ≤ (s.getTile n).inbox.length) ||
      (s.countTables n).2
  let post (s : State) (n : Nat) (c : Command) : State :=
    let (r, e) := c.batchRecord c.batches ds
    let s := (s.countTables n).1
    let s := if c.last ≤ hi then
        s.modTile n fun t => { t with
          cmds := t.cmds.filter fun x => !(x.seq == c.seq && x.engine == c.engine) }
      else s.setCmd n { c with batches := c.batches + 1 }
    s.postRecord n c e r
  let other : Option (Nat × Command) :=
    (s.pairOf n).bind fun m => (s.current m 2).map fun d => (m, d)
  if bars n c || ds.length < hi - lo || hi ≤ lo || ds.any (·.entry.isNone) then s
  else match other with
    | none => post s n c
    | some (m, d) => if bars m d then s else post (post s n c) m d

/-! ### The instructions (12 R309–R311) -/

/-- The first address of a list that is not a multiple of its alignment (12 R311): no access has
been made. -/
def misaligned (l : List (Word × Nat)) : Option Trap :=
  (l.find? fun p => p.1.toNat % p.2 != 0).map fun p => ⟨.misalign, p.1, none⟩

/-- BURINFAULT at issue (12 R311). -/
def State.burinRefusal (s : State) (kind : Nat) : Trap :=
  ⟨.burinfault, engTval true 2 kind 2 s.tile.nextSeq, none⟩

/-- A Burin command at issue: addresses, operands, and the common rules of engine commands. -/
def burinIssue (i : Instr) (st : StallCode) (d a : XReg) (kind : Nat)
    (addrs : List Word → List (Word × Nat)) (bad : List Word → Bool) (tag : Word → Word) (s : State) :
    State :=
  engineIssue { word := encode i, stall := st, reads := blockReads a } d 2 kind
    (fun s =>
      let ops := s.blockOf a
      (misaligned ((ops.getD 0 0, 128) :: addrs ops)).or
        (if bad ops then some (s.burinRefusal kind) else none))
    (fun s => tag ((s.blockOf a).getD 3 0)) (fun _ => 0) (fun s => s.blockOf a) s

/-- BCFG (12 R309). -/
def execBcfg (st : StallCode) (d a : XReg) (s : State) : Host.Outcome State Fault Refusal :=
  .next (burinIssue (.bcfg st d a) st d a 0 (fun _ => [])
    (fun ops =>
      let w := ops.getD 2 0
      let b := (slice w 0 7).toNat
      f32Refused (slice (ops.getD 1 0) 0 32) || f32Refused (slice (ops.getD 1 0) 32 32) ||
        decide (w &&& ~~~0x17F#64 ≠ 0 ∨ b = 0 ∨ 64 < b)) id s)

/-- BROOT (12 R309). -/
def execBroot (st : StallCode) (d a : XReg) (s : State) : Host.Outcome State Fault Refusal :=
  .next (burinIssue (.broot st d a) st d a 1 (fun ops => [(ops.getD 1 0, 128)]) (fun _ => false)
    id s)

/-- BDESC (12 R301–R303). -/
def execBdesc (st : StallCode) (d a : XReg) (s : State) : Host.Outcome State Fault Refusal :=
  .next (burinIssue (.bdesc st d a) st d a 2 (fun ops => [(ops.getD 2 0, 8)])
    (fun ops => decide ((ops.getD 1 0).toNat = 0 ∨ 256 < (ops.getD 1 0).toNat)) id s)

/-- BEXP (12 R304, R305). -/
def execBexp (st : StallCode) (d a : XReg) (s : State) : Host.Outcome State Fault Refusal :=
  .next (burinIssue (.bexp st d a) st d a 3
    (fun ops => [(ops.getD 1 0, 128), (ops.getD 2 0, 128)])
    (fun ops => decide (255 < (slice (ops.getD 3 0) 0 16).toNat)) (fun w => w >>> 16) s)

/-- BBACK (12 R306). -/
def execBback (st : StallCode) (d a : XReg) (s : State) : Host.Outcome State Fault Refusal :=
  .next (burinIssue (.bback st d a) st d a 4 (fun ops => [(ops.getD 1 0, 128)]) (fun _ => false)
    id s)

/-- BPOOL (12 R309). -/
def execBpool (st : StallCode) (d a : XReg) (s : State) : Host.Outcome State Fault Refusal :=
  .next (burinIssue (.bpool st d a) st d a 5 (fun ops => [(ops.getD 1 0, 128)])
    (fun ops => decide ((ops.getD 2 0).toNat = 0 ∨ 2 ^ 20 < (ops.getD 2 0).toNat)) id s)

/-- BREROOT (12 R308). -/
def execBreroot (st : StallCode) (d a : XReg) (s : State) : Host.Outcome State Fault Refusal :=
  .next (burinIssue (.breroot st d a) st d a 6 (fun ops => [(ops.getD 1 0, 128)]) (fun _ => false)
    id s)

/-- BDROP (12 R307). -/
def execBdrop (st : StallCode) (d a : XReg) (s : State) : Host.Outcome State Fault Refusal :=
  .next (burinIssue (.bdrop st d a) st d a 8 (fun ops => [(ops.getD 1 0, 128)]) (fun _ => false)
    id s)

/-- BSTAT (12 R310): one header word read at its home, past the tile's copy; no acquire. No rule
says which checks it gets and what a failed one raises: the model makes those of a load, so that
it takes LOADFAULT with KIND 0, needs only R, and accepts a header outside HBM (DESIGN CHOICE,
log 35). -/
def execBstat (st : StallCode) (d a b : XReg) (s : State) : Host.Outcome State Fault Refusal :=
  let q : Issue := { word := encode (.bstat st d a b), stall := st, reads := [.x a, .x b],
                     writes := [.x d] }
  .next (s.issue q fun s =>
    let h := s.readX a
    let va := h + 8 * (s.readX b &&& 15)
    if s.loadWaits then s.stay 0
    else if h.toNat % 128 ≠ 0 then s.raise ⟨.misalign, h, some (mfinfoOf 0 0 0 0)⟩
    else match s.check { kind := .load, align := 0 } va with
      | .error e => s.raise e
      | .ok x =>
        let x := { x with mt := true }
        (s.request (s.newReq .load [x.acc 8 0 0] (s.destX d 8 false) va)).finish q)

/-! ### Steps of the engine: tile `arg.tile` -/

/-- The command that the Burin engine works on for the tile of the event, where it has a kind. -/
def State.burinCommand (s : State) (k : Nat → Bool) : Option (State × Command) :=
  match s.inTurn s.arg.tile 2 with
  | some (s, c) => if k c.kind then some (s, c) else none
  | none => none

/-- DESCENT_STEP: one step of descent `n₁` of a BDESC, or the begin of the next (12 R301). -/
def execDescentStep (s : State) : Host.Outcome State Fault Refusal :=
  .next (match s.burinCommand (· == 2) with
    | some (s, c) => s.burinFor s.arg.tile c fun s => s.bdescWork s.arg.tile c s.arg.n₁
    | none => s)

/-- BATCH_POST: the record of a batch whose entries are written (12 R303). -/
def execBatchPost (s : State) : Host.Outcome State Fault Refusal :=
  .next (match s.burinCommand (· == 2) with
    | some (s, c) =>
      s.burinFor s.arg.tile c fun s => if c.started then s.batchPost s.arg.tile c else s
    | none => s)

/-- BEXP_LEAF_COMMIT: the next part of a BEXP, the last of which makes the leaf EXPANDED
(12 R304). -/
def execBexpLeafCommit (s : State) : Host.Outcome State Fault Refusal :=
  .next (match s.burinCommand (· == 3) with
    | some (s, c) => s.burinFor s.arg.tile c fun s => s.bexpWork s.arg.tile c
    | none => s)

/-- BBACK_PASS: one node of a backup (12 R306). -/
def execBbackPass (s : State) : Host.Outcome State Fault Refusal :=
  .next (match s.burinCommand (· == 4) with
    | some (s, c) => s.burinFor s.arg.tile c fun s => s.climbWork s.arg.tile c
    | none => s)

/-- BDROP_PASS: one node of a drop (12 R307). -/
def execBdropPass (s : State) : Host.Outcome State Fault Refusal :=
  .next (match s.burinCommand (· == 8) with
    | some (s, c) => s.burinFor s.arg.tile c fun s => s.climbWork s.arg.tile c
    | none => s)

/-- The commands that only touch the header, the root and the pool (12 R309). -/
def State.headerWork (s : State) (n : Nat) (c : Command) : State :=
  match c.kind with
  | 0 => s.bcfgWork n c
  | 1 => s.brootWork n c
  | 5 => s.bpoolWork n c
  | 6 => s.brerootWork n c
  | _ => s

/-- What the Burin engine does next for a command that it has begun; of a BDESC, the steps of the
descents that are parked. -/
def State.burinWork (s : State) (n : Nat) (c : Command) (pass : Pass) : State :=
  match c.kind with
  | 2 =>
    let parked := (List.range c.descents.length).filter fun i => (c.descents[i]?.bind (·.parked)).isSome
    if parked = [] then s.bdescWork n c c.descents.length
    else parked.foldl (fun s i => match s.current n 2 with
      | some c => s.descentStep n c i
      | none => s) s
  | 3 => if c.pos = 0 ∧ c.waiting ≠ some .pool then s.bexpBegin n c pass else s.bexpWork n c
  | 4 | 8 => s.climbWork n c
  | _ => s.headerWork n c

/-- An engine takes up again what it does for hart `n`, `pass` serving its held reads (11 R283). -/
def State.retryCmd (s : State) (n engine : Nat) (pass : Pass) : State :=
  if engine ≠ 2 then s.engineWork n engine pass
  else match s.inTurn n 2 with
    | some (s, c) => s.burinFor n c fun s => s.burinWork n c pass
    | none => s

/-- ENGINE_COMPLETION_POST: engine `n₁` posts a completion (11 R271). A command without steps of its
own takes effect first: a rotation or a collective once its last member has issued (11 R285), a copy
of no bytes, and a Burin command on the header. With `flag` the members of a collective on other
devices have issued (log 57). -/
def execEngineCompletionPost (s : State) : Host.Outcome State Fault Refusal :=
  let n := s.arg.tile
  let e := s.arg.n₁
  let s := match s.current n e with
    | some c =>
      if e = 2 then
        (match s.inTurn n 2 with
         | some (s, c) => s.burinFor n c fun s => s.headerWork n c
         | none => s)
      else if e = 1 then
        (if s.arg.flag then s.setCmd n { c with raised := true } else s).engineWork n e none
      else if (e = 0 ∧ (c.kind = 3 ∨ (c.kind ≠ 1 ∧ c.shape.len = 0))) then
        s.engineWork n e none
      else s
    | none => s
  .next (s.postCompletion n e)

/-- One extent appended to the tail of its pool; one that fails is skipped and reported
(12 R308). Where the header itself fails, RECLAIM cannot be reduced, and no rule says what happens:
the model skips the extent without an entry (DESIGN CHOICE, log 35). -/
def State.appendExtent (s : State) (r : Reclaim) (a : Word) (count : Nat) : Tried Unit :=
  let (line, arrival) := (r.parked.map (·.2)).getD (0, 0)
  let g : EngineAgent := ⟨r.tile, r.ctx, r.level, r.trbase, line, arrival⟩
  match s.treeRead g r.header 16 with
  | (s, .error (.fail _ _ _)) => (s, .ok ())
  | (s, .error e) => (s, .error e)
  | (s, .ok (hla, h)) =>
    let tail := h.getD 4 0
    let left := h.getD 7 0 - BitVec.ofNat 64 count
    let x : Tried (List (Nat × Nat × Word)) := (s.treeRead g a 2).bind fun s e =>
      let own := [(e.1, 0, (0 : Word)), (e.1, 1, BitVec.ofNat 64 count)]
      if tail = 0 then (s, .ok own)
      else (s.treeRead g tail 2).bind fun s t => (s, .ok (own ++ [(t.1, 0, a)]))
    match x with
    | (s, .error (.fail _ _ _)) =>
      ((s.treeWrite g hla [(7, left)]).report r.ctx 5 a r.header, .ok ())
    | (s, .error e) => (s, .error e)
    | (s, .ok ws) =>
      let s := ws.foldl (fun s p => s.treeWrite g p.1 [(p.2.1, p.2.2)]) s
      let s := s.treeWrite g hla [(3, if tail = 0 then a else h.getD 3 0), (4, a),
        (5, h.getD 5 0 + BitVec.ofNat 64 count), (7, left)]
      (match s.headerPlace g r.header with
       | some p => s.replayPool p
       | none => s, .ok ())

/-- Reclaim `i` changed. -/
def State.setReclaim (s : State) (i : Nat) (r : Reclaim) : State :=
  { s with reclaims := s.reclaims.set i r }

/-- The append of reclaim `i` is parked at a line (08 R198, 11 R283). -/
def State.parkReclaim (s : State) (i : Nat) (r : Reclaim) (p : Parked) (line : Nat) : State :=
  match r.parked.filter (·.2.1 == line) with
  | some (_, _, arrival) => s.setReclaim i { r with parked := some (p, line, arrival) }
  | none =>
    let s := s.setReclaim i { r with parked := none }
    if s.faultQueueFull (s.homeOf line) then s
    else { s with fresh := s.fresh + 1 }.setReclaim i { r with parked := some (p, line, s.fresh) }

/-- The record of the BREROOT of a reclaim has been posted (12 R308). -/
def State.reclaimLive (s : State) (r : Reclaim) : Bool :=
  s.tiles.all fun p => p.2.cmds.all fun c =>
    !(c.engine == 2 && c.kind == 6 && c.seq == r.seq && c.ctx == r.ctx && c.header == r.header)

/-- RECLAIM_APPEND: reclaim `n₁` appends its next extent, once the record has been posted
(12 R308). -/
def execReclaimAppend (s : State) : Host.Outcome State Fault Refusal :=
  .next (match s.reclaims[s.arg.n₁]? with
    | none => s
    | some r =>
      match r.extents with
      | [] => s
      | (a, count) :: rest =>
        if !s.reclaimLive r then s else
        match s.appendExtent r a count with
        | (s, .error (.park p line)) => s.parkReclaim s.arg.n₁ r p line
        | (s, .error .wait) | (s, .error (.fail _ _ _)) => s
        | (s, .ok ()) =>
          let l := if rest = [] then s.reclaims.eraseIdx s.arg.n₁
            else s.reclaims.set s.arg.n₁ { r with extents := rest, parked := none }
          { s with reclaims := l })

end Sys2Proof.Machine
end

