-- ==== Sys2Proof/Machine/Ctrl.lean ====
section
/-! DEFINITION. The control registers: their numbers, levels and layouts, and CRR, CRW, CRSET and
CRCLR (16 R399–R403, R457, R460). -/
namespace Sys2Proof.Machine

/-! ### Numbers and levels (16 R399) -/

/-- The read level of an assigned number, and its write level where it has one. -/
def crLevels (n : Nat) : Option (Nat × Option Nat) :=
  if n = 0 ∨ n = 7 ∨ n = 0xA ∨ n = 0xB ∨ n = 0xD ∨ n = 0xE then some (0, none)
  else if n = 1 ∨ n = 0xC ∨ n = 0x1B then some (0, some 1)
  else if n ≤ 9 ∨ n = 0xF then some (0, some 0)
  else if 0x10 ≤ n ∧ n ≤ 0x1A then some (0, none)
  else if (0x20 ≤ n ∧ n ≤ 0x26) ∨ (0x28 ≤ n ∧ n ≤ 0x2C) then some (1, some 1)
  else if 0x40 ≤ n ∧ n ≤ 0x45 then some (2, some 2)
  else none

/-! ### Reading -/

/-- BQSTAT (04 R85). -/
def Tile.bqstat (t : Tile) : Word :=
  0#49 ++ BitVec.ofNat 5 t.boqE.length ++ BitVec.ofNat 5 t.boqS.length ++
    BitVec.ofNat 5 t.boqA.length

/-- TASKST (15 R392). -/
def Tile.taskst (t : Tile) : Word :=
  bit1 t.tasks.running.isSome ++ bit1 t.tasks.side ++ 0#46 ++
    BitVec.ofNat 8 t.tasks.parked.length ++ BitVec.ofNat 8 t.tasks.ready.length
where
  bit1 (b : Bool) : BitVec 1 := if b then 1#1 else 0#1

/-- A register of kind H or C, as it reads (16 R399). -/
def Tile.readCr (t : Tile) (gtc n : Nat) : Word :=
  match n with
  | 0x01 => t.cr.status
  | 0x02 => t.cr.fpmode
  | 0x03 => t.cr.fpflags
  | 0x04 => t.cr.syncscope
  | 0x05 => t.cr.wincfg
  | 0x06 => t.cr.framepos
  | 0x07 => t.bqstat
  | 0x08 => t.cr.uvec
  | 0x09 => t.cr.uepc
  | 0x0A => setSlice t.cr.inbctl 32 6 (BitVec.ofNat 6 t.inbox.length)
  | 0x0B => t.cr.inbcnta
  | 0x0C => t.cr.barstat
  | 0x0D => t.taskst
  | 0x0E => t.cr.taskret
  | 0x0F => t.cr.mstat
  | 0x10 => vget t.cr.shape 0 0
  | 0x11 => vget t.cr.shape 1 0
  | 0x12 => vget t.cr.shape 2 0
  | 0x13 => vget t.cr.shape 3 0
  | 0x14 => vget t.cr.shape 4 0
  | 0x15 => vget t.cr.shape 5 0
  | 0x16 => vget t.cr.shape 6 0
  | 0x17 => vget t.cr.shape 7 0
  | 0x18 => t.cr.mxcfg
  | 0x1A => t.cr.ctxid
  | 0x1B => t.cr.netctx
  | 0x20 => t.cr.segmode
  | 0x21 => t.cr.trbase
  | 0x22 => t.cr.mfinfo
  | 0x23 => t.cr.etbase
  | 0x24 => t.cr.timecmp
  | 0x25 => t.cr.ienable
  | 0x26 => t.pending gtc
  | 0x28 => t.cr.sepc
  | 0x29 => t.cr.stcause
  | 0x2A => t.cr.stval
  | 0x2B => t.cr.stvec
  | 0x2C => t.cr.sscratch
  | 0x40 => t.cr.fepc
  | 0x41 => t.cr.ftcause
  | 0x42 => t.cr.ftval
  | 0x44 => t.cr.fscratch
  | 0x45 => t.cr.tdeleg
  | _ => 0

/-- HARTID (01 R23). -/
def State.hartid (s : State) : Word := BitVec.ofNat 64 (s.device * 2048 + s.cur)

/-- A control register as it reads (16 R399, R403). -/
def State.readCr (s : State) (n : Nat) : Word :=
  if n = 0 then s.hartid
  else if n = 0x19 then BitVec.ofNat 64 s.gtc
  else if n = 0x43 then s.ftvec
  else s.tile.readCr s.gtc n

/-! ### Segments (06 R121) -/

/-- The bytes of a range removed from a memory: they read as zero. -/
def Memory.clear (m : Memory) (lo hi : Nat) : Memory :=
  m.filter fun c => !(decide (lo ≤ c.1) && decide (c.1 < hi))

/-- The lines that a segment of a tile cache holds are written back and given up (06 R121). -/
def State.emptyWay (s : State) (n k : Nat) : State :=
  ((s.getTile n).cache.filter fun l => l.way == k).foldl (fun s l => s.evictLine n l.addr) s

/-- A segment that turns to scratchpad: its lines are zero and its words FULL. -/
def Tile.freshSegment (t : Tile) (k : Nat) : Tile :=
  { t with
    sram := t.sram.clear (k * 0x10000) ((k + 1) * 0x10000)
    empty := t.empty.filter fun o => o / 0x10000 != k }

/-- A segment that turns to cache loses its contents and bits. Requests that wait on its words end,
and tasks parked there become READY. -/
def State.dropSegment (s : State) (n k : Nat) : State :=
  let ws := (s.getTile n).feWaits.filter fun w => w.addr / 0x10000 == k
  let s := s.modTile n fun t => { t.freshSegment k with
    feWaits := t.feWaits.filter fun w => w.addr / 0x10000 != k || w.served.isSome }
  ws.foldl (fun s w => match w.task with
    | some id => s.readyTask w.tile id
    | none => s) s

/-- Segment `k` of tile `n` is converted to scratchpad (`on`) or to cache use, if it is not already
in that use (06 R121). -/
def State.convertSeg (s : State) (n k : Nat) (on : Bool) : State :=
  if (s.getTile n).scratch k == on then s
  else
    let s := if on then s.emptyWay n k else s
    let s := s.modTile n fun t => { t with
      cr := { t.cr with segmode := setSlice t.cr.segmode k 1 (if on then 1#1 else 0#1) } }
    let here (sector : Nat) : Bool := match regionOf (sector * 64) with
      | .window m off => m == n && off % 0x80000 / 0x10000 == k
      | .hbm | .launch _ | .regs _ | .appSram | .appRegs _ | .hostMem | .unmapped => false
    let s := { s with
      poisoned := s.poisoned.filter fun p => !here p.1
      injected := s.injected.filter fun p => !here p.1 }
    if on then s.modTile n (·.freshSegment k) else s.dropSegment n k

/-- SEGMODE.SP of tile `n` takes a value: each segment that changes is converted, in ascending order
(06 R121, R152). -/
def State.convert (s : State) (n : Nat) (sp : BitVec 8) : State :=
  (List.range 8).foldl (fun s k => s.convertSeg n k (bitAt sp k)) s

/-- The segments of tile `n` that a compact has pinned. -/
def State.pinnedSegs (s : State) (n : Nat) : BitVec 8 :=
  (s.pins.filter (·.tile == n)).foldl (fun m p =>
    (List.range p.pages.length).foldl (fun m i => m ||| (1#8 <<< (p.first + i))) m) 0#8

/-- The SP that a write of SEGMODE leaves: bits of pinned segments are ignored. -/
def State.newSp (s : State) (v : Word) : BitVec 8 :=
  let pin := s.pinnedSegs s.cur
  (slice v 0 8 &&& ~~~pin) ||| (slice s.tile.cr.segmode 0 8 &&& pin)

/-- A write of SEGMODE. -/
def State.writeSegmode (s : State) (v : Word) : State := s.convert s.cur (s.newSp v)

/-- With `defer` a write of SEGMODE that changes several segments converts them one at a time, and
the instruction stays at issue until one is left: an interrupt leaves the finished ones (00 R6, 16
R413, log 6). The segment that is converted next. -/
def State.nextSegment (s : State) (v : Word) : Option Nat :=
  let sp := s.newSp v
  let changed := (List.range 8).filter fun k => bitAt sp k != s.tile.scratch k
  if s.choice.defer && decide (1 < changed.length) then changed.head? else none

/-! ### Writing (16 R400–R403) -/

/-- The fields of STATUS that a level writes (16 R400). -/
def statusMask (level : Nat) : Word := if level = 2 then 0x7F3#64 else 0x531#64

/-- A write of STATUS: PL stays, and an SPPL of 2 or 3 leaves SPPL (16 R400). -/
def writeStatus (old v : Word) (level : Nat) : Word :=
  let v := if 2 ≤ (slice v 4 2).toNat then setSlice v 4 2 (slice old 4 2) else v
  (old &&& ~~~statusMask level) ||| (v &&& statusMask level)

/-- The RW fields of a register whose write has no rule of its own. -/
def crMask (n : Nat) : Word :=
  match n with
  | 0x03 => 0x1F#64
  | 0x05 => 1#64
  | 0x06 => 0x8FFFFFFFFFFFFFFC#64
  | 0x08 | 0x09 | 0x28 | 0x2B | 0x40 | 0x43 => ~~~3#64
  | 0x0C => 0x8000003FFFFFFFFF#64
  | 0x1B => 0x3F#64
  | 0x21 => 0x00FFFFFFFFFFFE01#64
  | 0x22 => 0x3FFF#64
  | 0x23 => 0x0000FFFFFFFFFC01#64
  | 0x25 => 0x1FE#64
  | 0x26 => 0x100#64
  | 0x29 | 0x41 => 0x80000000000000FF#64
  | 0x45 => 0x7FFFFE#64
  | _ => BitVec.allOnes 64

/-- The registers with a plain write (16 R403): their RW fields take those of `v`. -/
def CtrlRegs.write (c : CtrlRegs) (n : Nat) (v : Word) (level : Nat) : CtrlRegs :=
  let w := v &&& crMask n
  match n with
  | 0x01 => { c with status := writeStatus c.status v level }
  | 0x02 => { c with fpmode :=
      let v := v &&& 0xF#64
      if 5 ≤ (slice v 0 3).toNat then setSlice v 0 3 (slice c.fpmode 0 3) else v }
  | 0x03 => { c with fpflags := w }
  | 0x04 => { c with syncscope := if 5 ≤ (slice v 0 3).toNat then c.syncscope else v &&& 7#64 }
  | 0x05 => { c with wincfg := w }
  | 0x06 => { c with framepos := w }
  | 0x08 => { c with uvec := w }
  | 0x09 => { c with uepc := w }
  | 0x0C => { c with barstat := w }
  | 0x1B => { c with netctx := w }
  | 0x21 => { c with trbase := w }
  | 0x22 => { c with mfinfo := w }
  | 0x23 => { c with etbase := w }
  | 0x24 => { c with timecmp := w }
  | 0x25 => { c with ienable := w }
  | 0x26 => { c with ipend := (c.ipend &&& ~~~0x100#64) ||| w }
  | 0x28 => { c with sepc := w }
  | 0x29 => { c with stcause := w }
  | 0x2A => { c with stval := w }
  | 0x2B => { c with stvec := w }
  | 0x2C => { c with sscratch := w }
  | 0x40 => { c with fepc := w }
  | 0x41 => { c with ftcause := w }
  | 0x42 => { c with ftval := w }
  | 0x43 => { c with ftvec := some w }
  | 0x44 => { c with fscratch := w }
  | 0x45 => { c with tdeleg := w }
  | _ => c

/-- The new value of a control register (16 R403). `ones` are the bits of X[A] that a W1C field
clears. -/
def State.writeCr (s : State) (n : Nat) (v ones : Word) : State :=
  if n = 0x0F then
    s.onTile fun t => { t with cr := { t.cr with mstat := t.cr.mstat &&& ~~~ones } }
  else if n = 0x20 then s.writeSegmode v
  else
    let level := s.tile.level
    s.onTile fun t => { t with
      cr := t.cr.write n v level
      member := if n = 0x0C then { t.member with barrier := none } else t.member }

/-! ### The instructions (16 R403) -/

/-- A number that is not assigned. -/
def crUnassigned (n : Nat) : Bool := (crLevels n).isNone

/-- The level is too low to read the register. -/
def Tile.crNoRead (t : Tile) (n : Nat) : Bool :=
  match crLevels n with
  | some (r, _) => decide (t.level < r)
  | none => false

/-- The level is too low to write it; a register without a write level needs its read level. -/
def Tile.crNoWrite (t : Tile) (n : Nat) : Bool :=
  match crLevels n with
  | some (r, w) => decide (t.level < w.getD r)
  | none => false

/-- The register has a write level. -/
def crWritable (n : Nat) : Bool :=
  match crLevels n with
  | some (_, some _) => true
  | some (_, none) | none => false

/-- CRR (16 R403). -/
def execCrr (st : StallCode) (d : XReg) (n : BitVec 10) (s : State) :
    Host.Outcome State Fault Refusal :=
  let q : Issue := { word := encode (.crr st d n), stall := st, serial := true, writes := [.x d],
                     illegal := fun _ => crUnassigned n.toNat
                     priv := fun s => s.tile.crNoRead n.toNat }
  .next (s.issue q fun s => (s.commitX d (s.readCr n.toNat)).finish q)

/-- CRW, CRSET and CRCLR: the value computed from the register and X[A], and the bits that clear a
W1C field. -/
def crUpdate (i : Instr) (st : StallCode) (a : XReg) (n : BitVec 10) (f : Word → Word → Word)
    (clears : Bool) (s : State) : State :=
  let q : Issue := { word := encode i, stall := st, serial := true, reads := [.x a],
                     side := true, illegal := fun _ => crUnassigned n.toNat
                     priv := fun s => s.tile.crNoWrite n.toNat }
  s.issue q fun s =>
    if !crWritable n.toNat then s.finish q
    else
      let x := s.readX a
      let v := f (s.readCr n.toNat) x
      match if n = 0x20 then s.nextSegment v else none with
      | some k => (s.convertSeg s.cur k (bitAt v k)).stay 0
      | none => (s.writeCr n.toNat v (if clears then x else 0)).finish q

/-- CRW (16 R403). -/
def execCrw (st : StallCode) (a : XReg) (n : BitVec 10) (s : State) :
    Host.Outcome State Fault Refusal :=
  .next (crUpdate (.crw st a n) st a n (fun _ x => x) true s)

/-- CRSET (16 R403). -/
def execCrset (st : StallCode) (a : XReg) (n : BitVec 10) (s : State) :
    Host.Outcome State Fault Refusal :=
  .next (crUpdate (.crset st a n) st a n (fun o x => o ||| x) false s)

/-- CRCLR (16 R403). -/
def execCrclr (st : StallCode) (a : XReg) (n : BitVec 10) (s : State) :
    Host.Outcome State Fault Refusal :=
  .next (crUpdate (.crclr st a n) st a n (fun o x => o &&& ~~~x) true s)

end Sys2Proof.Machine
end

