-- ==== Sys2Proof/Machine/Save.lean ====
section
/-! DEFINITION. The save area of a hart: its image, the save and the load by the Proof engine, and
what arrives for a saved hart (16 R414–R416, 08 R199). -/
namespace Sys2Proof.Machine

/-! ### The image of the state block (16 R414) -/

/-- A register number whose value stands in the control-register block. -/
def crSaved (n : Nat) : Bool := n != 0 && n != 0x19 && decide (n < 0x40) && (crLevels n).isSome

/-- Word `w` of an inbox record. -/
def Record.word (r : Record) (w : Nat) : Word :=
  if w = 0 then r.w0 else if w = 1 then r.w1 else if w = 2 then r.w2 else r.w3

/-- Full/empty bits of 64 words of SRAM, a FULL word being 1. -/
def Tile.feBits (t : Tile) (j : Nat) : Word :=
  BitVec.ofNat 64 ((List.range 64).foldl
    (fun a b => if t.isEmpty (8 * (64 * j + b)) then a else a + 2 ^ b) 0)

/-- An instruction store as words. -/
def storeWord (m : Memory) (k : Nat) : Word := BitVec.ofNat 64 (readLE m.read (8 * k) 8)

/-- The loads that a save records as pending results. -/
def Tile.pendingLoads (t : Tile) : List Req := t.reqs.filter (·.kind == .load)

/-- Word `i` of the state block of a tile. `hdr` is the header; `store` the number under which the
state behind the implementation-defined blocks is kept: it stands in the first of their words
(log 16). -/
def Tile.stateWord (t : Tile) (gtc store : Nat) (hdr : List Word) (i : Nat) : Word :=
  if i < 16 then hdr.getD i 0
  else if i < 48 then (if i = 16 then 0 else t.eh.x.get (i - 16))
  else if i < 56 then t.eh.x.get (i - 16)
  else if i < 64 then (if i = 56 then BitVec.allOnes 64 else t.m.get (i - 56))
  else if i < 128 then (if crSaved (i - 64) then t.readCr gtc (i - 64) else 0)
  else if i < 256 then (if i = 128 then BitVec.ofNat 64 store else 0)
  else if i < 512 then slice (t.v.get ((i - 256) / 8)) (64 * (i % 8)) 64
  else if i < 640 then
    (match t.inbox[(i - 512) / 4]? with
     | some r => r.word (i % 4)
     | none => 0)
  else if i < 1024 then 0
  else if i < 1280 then t.imageWord (0x4000 + 8 * (i - 1024))
  else if i < 3328 then t.imageWord (8 * (i - 1280))
  else if i < 4096 then 0
  else if i < 5120 then t.feBits (i - 4096)
  else if i < 8192 then 0
  else if i < 10240 then storeWord t.acSeq.store (i - 8192)
  else if i < 12288 then storeWord t.stSeq.store (i - 10240)
  else if i < 16384 then
    slice (vget (vget t.t ((i - 12288) / 512) (Vector.replicate 64 0)) ((i - 12288) % 512 / 8) 0)
      (64 * (i % 8)) 64
  else if i < 24576 then
    let row := vget (vget t.acc ((i - 16384) / 2048) (Vector.replicate 64 (Vector.replicate 64 0)))
      ((i - 16384) % 2048 / 32) (Vector.replicate 64 0)
    vget row (2 * (i % 32) + 1) 0 ++ vget row (2 * (i % 32)) 0
  else if i < 24832 then
    (match t.pendingLoads[(i - 24576) / 4]? with
     | some q => if i % 4 = 0 then BitVec.ofNat 64 (2 ^ 63 + q.unit.source)
                 else if i % 4 = 1 then BitVec.ofNat 64 q.id else 0
     | none => 0)
  else 0

/-- The scratchpad segments, ascending. -/
def Tile.segments (t : Tile) : List Nat := (List.range 8).filter t.scratch

/-- The bytes in a save area (16 R418). -/
def Tile.areaSize (t : Tile) : Nat := 0x40000 + 0x10000 * t.segments.length

/-- The header of an area (16 R414). -/
def Tile.areaHeader (t : Tile) (gtc launch : Nat) (pc : Word) (level : Nat) : List Word :=
  [0x0001000053443438#64, pc,
   0#46 ++ (if t.stSeq.running then 1#1 else 0#1) ++ (if t.acSeq.running then 1#1 else 0#1) ++
     slice t.cr.segmode 0 8 ++ BitVec.ofNat 8 level,
   BitVec.ofNat 64 launch, t.cr.ctxid, BitVec.ofNat 64 gtc, BitVec.ofNat 64 t.areaSize]

/-! ### Writing and reading areas -/

/-- Owned lines within a range are written back and given up. -/
def State.recallRange (s : State) (la n : Nat) : State :=
  let lines := s.tiles.flatMap fun p => (p.2.cache.filter fun l =>
    l.owned && decide (la ≤ l.addr ∧ l.addr < la + n)).map (·.addr)
  lines.foldl (fun s l => s.recall l) s

/-- `n` words written at a local address by a context (15 R391). -/
def State.writeWords (s : State) (ctx la n : Nat) (f : Nat → Word) : State :=
  match regionOf la with
  | .hbm | .appSram | .hostMem =>
    let s := s.recallRange la (8 * n)
    { s with
      appCache := s.appCache.filter fun l => !(decide (la ≤ l.addr ∧ l.addr < la + 8 * n))
      reservations := s.reservations.filter fun p => !(decide (la ≤ p.2 ∧ p.2 < la + 8 * n))
      mem := (List.range n).foldl (fun m k =>
        writeLE (fun (m : Memory) a b => m.write a b) m (la + 8 * k) (f k).toNat 8) s.mem
      tags := (List.range (n / 8)).foldl (fun t k => putKey t (sectorOf la + k) ctx) s.tags
      poisoned := s.poisoned.filter fun p =>
        !(decide (sectorOf la ≤ p.1 ∧ p.1 < sectorOf la + n / 8))
      injected := s.injected.filter fun p =>
        !(decide (sectorOf la ≤ p.1 ∧ p.1 < sectorOf la + n / 8)) }.mailboxTriggers [(la, 8 * n)]
  | .window _ _ => (List.range n).foldl (fun s k => s.writeMem ctx (la + 8 * k) 8 (f k).toNat) s
  | .launch _ | .regs _ | .appRegs _ | .unmapped => s

/-- The physical address of a byte of an area. -/
def areaAddr (pages : List Nat) (off : Nat) : Nat := pages.getD (off / 0x10000) 0 + off % 0x10000

/-- The words of page `k` of an area written. -/
def State.writePage (s : State) (ctx : Nat) (pages : List Nat) (k : Nat) (f : Nat → Word) : State :=
  let pa := pages.getD k 0
  if s.isLocal pa then s.writeWords ctx (localAddr pa) 8192 f else s

/-- A word of an area. -/
def State.areaWord (s : State) (pages : List Nat) (i : Nat) : Word :=
  let pa := areaAddr pages (8 * i)
  if s.isLocal pa then BitVec.ofNat 64 (s.readMem (localAddr pa) 8) else Config.remoteWord s.fresh pa

/-- The state block of a tile's state written to an area, and the images of `segs`. -/
def State.writeArea (s : State) (ctx : Nat) (t : Tile) (store : Nat) (pages : List Nat)
    (hdr : List Word) (segs : List Nat) : State :=
  let s := (List.range 4).foldl (fun s k =>
    s.writePage ctx pages k fun i => t.stateWord s.gtc store hdr (8192 * k + i)) s
  segs.zipIdx.foldl (fun s p =>
    s.writePage ctx pages (4 + p.2) fun i => storeWord t.sram (8192 * p.1 + i)) s

/-- A number for the hidden state of a saved hart: one that no tile has. -/
def State.freshStore (s : State) : Nat :=
  (s.others.foldl (fun m p => max m p.1) 2047) + 1

/-- Word `i` of an area changed to `w`. -/
def State.syncWord (s : State) (ctx : Nat) (pages : List Nat) (i : Nat) (w : Word) : State :=
  let pa := areaAddr pages (8 * i)
  if !s.isLocal pa then s
  else (s.writeMem ctx (localAddr pa) 8 w.toNat).mailboxTriggers [(localAddr pa, 8)]

/-- What has arrived for saved harts lands in their areas, in the images of their segments too
(16 R415, 08 R199, 11 R293): `old` is the state before. -/
def State.syncAreas (s old : State) : State :=
  s.areas.foldl (fun s a =>
    let t := s.getTile a.store
    let t' := old.getTile a.store
    if a.loaded || t = t' || !(old.areas.any fun b => b.store == a.store && !b.loaded) then s
    else
      let s := (List.range 32768).foldl (fun s i =>
        let w := t.stateWord s.gtc a.store a.header i
        if w = t'.stateWord s.gtc a.store a.header i then s else s.syncWord t.ctx a.pages i w) s
      if t.sram = t'.sram then s
      else t.segments.zipIdx.foldl (fun s p => (List.range 8192).foldl (fun s i =>
        let w := storeWord t.sram (8192 * p.1 + i)
        if w = storeWord t'.sram (8192 * p.1 + i) then s
        else s.syncWord t.ctx a.pages (8192 * (4 + p.2) + i) w) s) s) s

/-! ### Loading (16 R416) -/

/-- Bytes of `n` words from `base` on as a memory. -/
def memoryOf (base n : Nat) (f : Nat → Word) : Memory :=
  (List.range n).flatMap fun k => (List.range 8).filterMap fun b =>
    let v : Byte := slice (f k) (8 * b) 8
    if v = 0 then none else some (base + 8 * k + b, v)

/-- Eight words as a vector. -/
def vecOf (f : Nat → Word) : Vec := f 7 ++ f 6 ++ f 5 ++ f 4 ++ f 3 ++ f 2 ++ f 1 ++ f 0

/-- The control registers of an area; those that software writes obey the rules of their writes (16
R403), and SEGMODE.SP takes the mask of the header (16 R416). A SHAPE that software has edited to a
value that no SETSHAPE grants, and an MXCFG edited to one that MCFG refuses, is loaded as it stands
(DESIGN CHOICE, log 64). -/
def CtrlRegs.load (c : CtrlRegs) (w : Nat → Word) (level : Nat) : CtrlRegs :=
  let r (n : Nat) : Word := w (64 + n)
  let c := [0x01, 0x02, 0x03, 0x04, 0x05, 0x06, 0x08, 0x09, 0x0C, 0x1B, 0x21, 0x22, 0x23, 0x24, 0x25,
    0x26, 0x28, 0x29, 0x2A, 0x2B, 0x2C].foldl (fun c n => c.write n (r n) level) c
  { c with
    inbctl := r 0x0A &&& 0xFFFFFF17#64
    inbcnta := r 0x0B &&& ~~~6#64
    taskret := r 0x0E &&& ~~~3#64
    mstat := r 0x0F &&& 0x3F#64
    shape := Vector.ofFn fun i => r (0x10 + i.val) &&& 0x7F7F#64
    mxcfg := r 0x18 &&& 0x3EFFF#64
    segmode := (slice (w 2) 8 8).setWidth 64 }

/-- The messages of a channel block: occupied entries come first. -/
def loadMsgs (w : Nat → Word) (n : Nat) : List (Msg × Word) :=
  ((List.range n).map fun e =>
    (⟨w (16 * e), vecOf fun k => w (16 * e + 1 + k)⟩, w (16 * e + 9))).takeWhile
      fun (p : Msg × Word) => bitAt p.1.hdr 63

/-- The state of a hart read from an area: `w` are the words of its state block, `seg j` those of
its j-th image, `h` the state behind its other blocks, and `t` the tile that it is loaded into,
at a level. -/
def Tile.loadFrom (t h : Tile) (w : Nat → Word) (seg : Nat → Nat → Word) (level : Nat) : Tile :=
  let cr := t.cr.load w level
  let segs := (List.range 8).filter (bitAt cr.segmode)
  let count := min 32 (slice (w 74) 32 6).toNat
  let inj := loadMsgs (fun i => w (1024 + i)) 16
  { h with
    eh := { t.eh with
      x := ⟨Vector.ofFn fun i => if i.val = 0 then 0 else w (16 + i.val), [], []⟩ }
    acSeq := { h.acSeq with store := memoryOf 0 2048 fun k => w (8192 + k) }
    stSeq := { h.stSeq with store := memoryOf 0 2048 fun k => w (10240 + k) }
    v := ⟨Vector.ofFn fun i => vecOf fun k => w (256 + 8 * i.val + k), [], []⟩
    m := ⟨Vector.ofFn fun i => w (56 + i.val), [], []⟩
    t := Vector.ofFn fun k => Vector.ofFn fun j => vecOf fun b =>
      w (12288 + 512 * k.val + 8 * j.val + b)
    acc := Vector.ofFn fun a => Vector.ofFn fun r => Vector.ofFn fun c =>
      slice (w (16384 + 2048 * a.val + 32 * r.val + c.val / 2)) (32 * (c.val % 2)) 32
    arrival := none
    run := t.run
    unsound := []
    cr := cr
    frame := none
    stuckSince := none
    sram := (segs.zipIdx.flatMap fun p => memoryOf (0x10000 * p.1) 8192 (seg p.2))
    empty := (List.range 1024).flatMap fun j => ((List.range 64).filter fun b =>
      !bitAt (w (4096 + j)) b).map fun b => 8 * (64 * j + b)
    feWaits := (t.feWaits.filter (·.task.isNone)) ++ h.feWaits
    cache := []
    tlb := t.tlb
    fetched := []
    reqs := t.reqs ++ h.reqs
    deferred := t.deferred ++ h.deferred
    inbox := (List.range count).map fun k =>
      ⟨w (512 + 4 * k), w (513 + 4 * k), w (514 + 4 * k), w (515 + 4 * k)⟩
    channels := Vector.ofFn fun c =>
      let old := vget h.channels c.val Channel.closed
      { old with entries := (loadMsgs (fun i => w (1280 + 256 * c.val + i)) 16).map (·.1) }
    inj := (t.inj.filter (·.orphan)) ++ inj.zipIdx.map fun p =>
      match h.inj[p.2]? with
      | some e => { e with msg := p.1.1, dest := p.1.2 }
      | none => { msg := p.1.1, dest := p.1.2, marker := slice p.1.1.hdr 44 4 == 2#4, id := 0, sent := none
                  retryAt := none, paired := false, orphan := false, ctx := t.ctx }
    place := t.place
    away := t.away
    loading := t.loading
    doorbell := t.doorbell
    placeable := t.placeable
    physical := t.physical }

/-- References to a hart renamed as it moves: the tasks parked in full/empty tables, and its packets
that wait at a port (14 R368). -/
def State.renameHart (s : State) (a b : Nat) : State :=
  let s := s.mapTiles fun _ t => { t with
    feWaits := t.feWaits.map fun w => if w.tile = a ∧ w.task.isSome then { w with tile := b } else w }
  { s with ports := vmap (fun (p : Port) => { p with
      waiting := p.waiting.map fun k =>
        if k.input = ownInput ∧ k.request ∧ k.tile = a then { k with tile := b } else k }) s.ports }

/-- The area of the hart that loads, context `ctx` and launch HARTID `launch`, whose number stands
in the implementation-defined blocks. -/
def State.ownArea (s : State) (w : Nat → Word) (ctx launch : Nat) : Option SaveArea :=
  s.areas.find? fun a => a.store == (w 128).toNat && decide (2048 ≤ a.store) &&
    (slice (a.header.getD 4 0) 0 12).toNat == ctx && (a.header.getD 3 0).toNat == launch

/-- The state behind the implementation-defined blocks of an area, found by the word that a save of
the same hart has left there; other contents load unpredictable values, which reach no state but
that of the loading hart (16 R414, log 16). -/
def State.hidden (s : State) (w : Nat → Word) (ctx launch : Nat) : Tile :=
  match s.ownArea w ctx launch with
  | some a => s.getTile a.store
  | none => { Config.unpredictableTile s.fresh with
      feWaits := [], reqs := [], remote := [], cmds := [], deferred := [], member := Member.free }

/-- What belongs to a saved hart rather than to its tile has gone to the area: requests, commands,
tasks and messages. The sequencers have been stopped as by QSTOP (16 R415). -/
def Tile.handOver (t : Tile) (store : Nat) : Tile :=
  { t with
    reqs := [], cmds := [], remote := [], deferred := [], inj := [], away := store :: t.away
    acSeq := t.acSeq.stop
    stSeq := t.stSeq.stop
    feWaits := t.feWaits.filter (·.task.isNone)
    cache := t.cache.map fun l => { l with dirty0 := false, dirty1 := false } }

/-- A sequencer as a save keeps it: its writes are visible (06 R147, 16 R415). -/
def Sequencer.kept (q : Sequencer) : Sequencer :=
  { q with core := { q.core with x := q.core.x.settle } }

/-- What the area keeps of a tile: everything of the hart, nothing of the tile's cache and TLB. Its
messages are accepted from now on (14 R351). -/
def Tile.kept (t : Tile) : Tile :=
  { t with
    cache := [], tlb := [], fetched := [], arrival := none, loading := false
    acSeq := t.acSeq.kept, stSeq := t.stSeq.kept
    feWaits := t.feWaits.filter (·.task.isSome) }

/-- Tile `n` saved to an area (16 R415): its dirty sectors written back, its state kept under
`store`, and the block and the images written. -/
def State.saveHart (s : State) (n store : Nat) (pages : List Nat) (hdr : List Word) : State :=
  let t := s.getTile n
  let s := t.cache.foldl (fun s l => s.writeBackLine l) s
  let s := s.writeArea t.ctx t store pages hdr t.segments
  let s := s.setTile store t.kept
  let s := s.renameHart n store
  let s := s.modTile n (·.handOver store)
  { s with areas := ⟨store, pages, hdr, false⟩ :: s.areas.filter (·.store != store) }

/-- A saved state whose area has been loaded: what was under way belongs to the hart again. -/
def Tile.handedBack (t : Tile) : Tile :=
  { t with
    reqs := [], cmds := [], remote := [], inj := [], feWaits := [], deferred := [], place := none
    away := [] }

/-- The area of a hart of context `ctx` and launch HARTID `launch` is loaded into tile `n` (16
R416): an acquire at DOMAIN scope. What comes for the hart goes to this area no more (16 R415).
Unpredictable contents of the block that holds the gang window reach no other tile: they open none
(16 R414). -/
def State.loadHart (s : State) (n : Nat) (pages : List Nat) (level ctx launch : Nat) : State :=
  let w := s.areaWord pages
  let h := s.hidden w ctx launch
  let area := s.ownArea w ctx launch
  let t := s.getTile n
  let s := t.cache.foldl (fun s l => s.evictLine n l.addr) s
  let t := (s.getTile n).loadFrom h w (fun j i => s.areaWord pages (8192 * (4 + j) + i)) level
  let run (q : Sequencer) (b : Nat) : Sequencer :=
    { q with running := bitAt (w 2) b
             core := { q.core with wait := if bitAt (w 2) b then q.core.wait else 5 } }
  let s := s.setTile n { t with
    acSeq := run t.acSeq 16, stSeq := run t.stSeq 17
    window := if area.isSome then h.window else none }
  match area with
  | none => s
  | some a =>
    let s := (s.modTile n fun t => { t with away := t.away.filter (· != a.store) }).modTile a.store
      (·.handedBack)
    { s with areas := s.areas.map fun (b : SaveArea) =>
        if b.store = a.store then { b with loaded := true } else b }.renameHart a.store n

/-- A hart changed by `f`; of a saved one the area is written anew, with the time of its save (13
R338, R336, R342). -/
def State.changeHart (s : State) (k : Nat) (f : Tile → Tile) : State :=
  let t := f (s.getTile k)
  let s := s.setTile k t
  match s.areas.find? fun a => a.store == k && !a.loaded with
  | none => s
  | some a =>
    let hdr := t.areaHeader (a.header.getD 5 0).toNat (a.header.getD 3 0).toNat t.eh.pc t.level
    let s := s.writeArea t.ctx t k a.pages hdr t.segments
    { s with areas := s.areas.map fun x => if x.store = k then { x with header := hdr } else x }

/-! ### CTXSAVE and CTXLOAD (16 R418, R419) -/

/-- The launch HARTID of the tile in focus; a hart of no gang has its own HARTID (14 R348). -/
def State.launchHartid (s : State) : Nat :=
  match s.tile.place with
  | some p => p.launch
  | none => s.device * 2048 + s.cur

/-- GANGERR with a code, for an instruction word (10 R262). -/
def gangerrTval (w : Word32) (code : Nat) : Word := 0#28 ++ BitVec.ofNat 4 code ++ w

/-- The translated pages of an area at a virtual address under SYS translation, each checked for `k`
(16 R418). That CTXLOAD translates its X[B] in the same way is read from the like wording of 16 R419
(DEDUCED, log 70). -/
def State.areaPages (s : State) (k : AccKind) (va : Word) : Nat → Except Trap (List Nat)
  | 0 => .ok []
  | n + 1 =>
    match s.checkAt 1 { kind := k, align := 0 } va with
    | .error e => .error e
    | .ok x => match s.areaPages k (va + 0x10000) n with
      | .error e => .error e
      | .ok l => .ok (x.pa :: l)

/-- The stores of a tile that no line holds back have been performed: its save is a release of every
write of the context there (07 R174). -/
def Tile.storesDone (t : Tile) : Bool :=
  t.reqs.all fun q => q.kind != .store || q.parked.isSome

/-- A save or a load of the executing hart waits: for the outstanding results of the execute hart,
for the stores of all three units, and for an image copy of a QSTART (07 R174, 16 R415, 06 R146). -/
def State.saveWaits (s : State) : Bool :=
  s.acquiring || !s.released || !s.tile.storesDone || s.tile.acSeq.copying.isSome ||
    s.tile.stSeq.copying.isSome

/-- A page of an area is held up at its home: by a compact, the host's copy, the copying of a line,
a tile of another device, or a request that is parked there (13 R335, 17 R432, R444, 14 R363, 08
R198). -/
def State.areaHeld (s : State) (pages : List Nat) (write : Bool) : Bool :=
  pages.any fun pa =>
    let page := localAddr pa / 0x10000
    let here (accs : List Acc) : Bool := accs.any fun a => localAddr a.pa / 0x10000 == page
    s.isLocal pa && (s.pinnedByOther (localAddr pa) ||
      s.snoop.any (fun l => l / 0x10000 == page && (write || !s.snoopClean.contains l)) ||
      (match s.service.sparing with
       | some (_, l) => l / 0x10000 == page
       | none => false) ||
      s.farOwned.any (fun p => p.1 / 0x10000 == page) ||
      s.tiles.any fun t => t.2.reqs.any fun q =>
        (q.parked == some .retry || q.parked == some .pinned) && here q.accs)

/-- With `defer` an instruction that an interrupt may divide takes a turn for what it does first
(log 6). -/
def State.dividesNow (s : State) : Bool := s.choice.defer && s.core.begun.isNone

/-- The instruction stays at issue, having begun. -/
def State.stayBegun (s : State) (b : Begun) : State :=
  (s.setCore { s.core with begun := some b }).stay 0

/-- CTXSAVE (16 R418). GANGERR code 16 does not fit the four bits of the field of 10 R262: the code
fills the bits from 32 on (log 18). With `defer` it is at work for a turn, in which an interrupt
finds the area in part written. The place of the hart in its gang stays with the hart. -/
def execCtxsave (st : StallCode) (d a : XReg) (s : State) : Host.Outcome State Fault Refusal :=
  let w := encode (.ctxsave st d a)
  let q : Issue := { word := w, stall := st, level := 1, serial := true, reads := [.x a],
                     writes := [.x d] }
  .next (s.issue q fun s =>
    let va := s.readX a
    if va.toNat % 0x10000 ≠ 0 then s.raise ⟨.misalign, va, some (mfinfoOf 0 0 1 0)⟩
    else if s.saveWaits then s.stay 0
    else match s.areaPages .store va (s.tile.areaSize / 0x10000) with
      | .error e => s.raise e
      | .ok pages =>
        if s.tile.member.phase ≠ .free then s.raise ⟨.gangerr, 0#27 ++ 16#5 ++ w, none⟩
        else if s.areaHeld pages true then s.stay 0
        else if s.dividesNow then s.stayBegun (.save pages)
        else
        let size := BitVec.ofNat 64 s.tile.areaSize
        let hdr := s.tile.areaHeader s.gtc s.launchHartid s.tile.cr.sepc
          (slice s.tile.cr.status 4 2).toNat
        let store := s.freshStore
        (((s.saveHart s.cur store pages hdr).modTile store fun t => { t with place := none }).commitX d
          size).finish q)

/-- The errors in an area are found (18 R448). -/
def State.detectArea (s : State) (pages : List Nat) : State :=
  (s.injected.filter fun x => pages.any fun pa =>
    s.isLocal pa && x.1 / 1024 == localAddr pa / 0x10000).foldl (fun s x => s.detect x.1) s

/-- A lost sector in an area: its address. -/
def State.areaLost (s : State) (pages : List Nat) (size : Nat) : Option Nat :=
  (List.range (size / 64)).find? fun k =>
    let pa := areaAddr pages (64 * k)
    s.isLocal pa && s.lost (sectorOf (localAddr pa))

/-- The checks of an area before it is loaded (16 R419). -/
def State.badArea (s : State) (pages : List Nat) : Bool :=
  let w := s.areaWord pages
  let mask : BitVec 8 := slice (w 2) 8 8
  let segs := ((List.range 8).filter (bitAt mask)).length
  w 0 != 0x0001000053443438#64 || w 4 != s.tile.cr.ctxid ||
    (w 3).toNat != s.launchHartid || decide (1 < (slice (w 2) 0 2).toNat) ||
    (w 6).toNat != 0x40000 + 0x10000 * segs

/-- The first stage of CTXLOAD: tile registers, banks, instruction stores and the scratchpad
segments of the area are overwritten (16 R419). -/
def State.loadFirst (s : State) (pages : List Nat) : State :=
  let w := s.areaWord pages
  let mask : BitVec 8 := slice (w 2) 8 8
  let t := s.tile.loadFrom s.tile w (fun j i => s.areaWord pages (8192 * (4 + j) + i)) s.tile.level
  let new (k : Nat) : Bool := s.tile.scratch k && bitAt mask k
  s.onTile fun u => { u with
    t := t.t
    acc := t.acc
    acSeq := { u.acSeq with store := t.acSeq.store }
    stSeq := { u.stSeq with store := t.stSeq.store }
    sram := ((List.range 8).filter u.scratch).flatMap fun k =>
      (if new k then t.sram else u.sram).filter fun p => p.1 / 0x10000 == k }

/-- The entries of the injection queue that an area holds (14 R345, R459). -/
def State.areaInj (s : State) (pages : List Nat) : Nat :=
  (loadMsgs (fun i => s.areaWord pages (1024 + i)) 16).length

/-- CTXLOAD (16 R419). It waits until the queue of the tile, where messages of an ended gang may
stand, has room for the entries of the area (14 R345). With `defer` its first stage is a turn of its
own. -/
def execCtxload (st : StallCode) (a : XReg) (s : State) : Host.Outcome State Fault Refusal :=
  let w := encode (.ctxload st a)
  let q : Issue := { word := w, stall := st, level := 1, serial := true, reads := [.x a] }
  .next (s.issue q fun s =>
    let va := s.readX a
    let bad (r : Nat) (c : Cause) (va : Word) : Trap := ⟨c, va, some (mfinfoOf 0 0 0 r)⟩
    if va.toNat % 0x10000 ≠ 0 then s.raise ⟨.misalign, va, some (mfinfoOf 0 0 0 0)⟩
    else if s.saveWaits then s.stay 0
    else match s.areaPages .load va 4 with
      | .error e => s.raise e
      | .ok head =>
        let size := min 0xC0000 (max 0x40000 (s.areaWord head 6).toNat)
        match s.areaPages .load va (size / 0x10000) with
        | .error e => s.raise e
        | .ok pages =>
          if s.areaHeld pages false then s.stay 0
          else if s.badArea pages then s.raise (bad reasonBADSAVE .loadfault va)
          else
          let s := s.detectArea pages
          match s.areaLost pages size with
            | some k => s.raise (bad reasonUE .dataerr (va + BitVec.ofNat 64 (64 * k)))
            | none =>
              if s.tile.member.phase ≠ .free then s.raise ⟨.gangerr, 0#27 ++ 16#5 ++ w, none⟩
              else if 16 < (s.areaInj pages) + (s.tile.inj.filter (·.orphan)).length then s.stay 0
              else if s.dividesNow then (s.loadFirst pages).stayBegun .load
              else
                let pc := s.areaWord pages 1
                let lvl := slice (s.areaWord pages 2) 0 2
                let s := s.loadHart s.cur pages s.tile.level s.tile.ctx s.launchHartid
                (s.onTile fun t => { t with cr := { t.cr with
                  sepc := pc &&& ~~~3#64
                  status := setSlice t.cr.status 4 2 lvl } }).finish q)

end Sys2Proof.Machine
end

