-- ==== Sys2Proof/Machine/Message.lean ====
section
/-! DEFINITION. Messages, channels, split-phase remote accesses and FENCEM (14 R345–R356,
07 R178), the ends of requests for other devices (14 R368), and the routers and links of the device
(14 R364–R369). -/
namespace Sys2Proof.Machine

/-! ### Headers and targets (14 R347, R348, R350) -/

/-- A header word (14 R347). -/
def msgHeader (tenant kind tag src : Nat) : Word :=
  1#1 ++ 0#7 ++ BitVec.ofNat 8 tenant ++ BitVec.ofNat 4 kind ++ 0#4 ++ BitVec.ofNat 16 tag ++ 0#1 ++
    BitVec.ofNat 23 src

/-- The refusal at issue for a target device (14 R356): codes 2 and 3. -/
def State.targetFault (s : State) (launch : Nat) : Option Nat :=
  let d := launch / 2048
  if d = s.device then none
  else if 0xC00 ≤ d ∨ !s.peers.contains d then some 2
  else if s.outOfBox s.tile.tenant d then some 3
  else none

/-- The tile, or the save area, that holds a hart of a launch HARTID on this device (14 R348). A
hart of no gang that has been started has its HARTID. -/
def State.receiver (s : State) (launch : Nat) : Option Nat :=
  let live (n : Nat) : Nat := (s.getTile n).away.headD n
  match s.tileOfLaunch launch with
  | some n => some (live n)
  | none =>
    let n := launch % 2048
    let t := s.getTile n
    if launch / 2048 = s.device ∧ t.place.isNone ∧ t.run ≠ .halted ∧ t.run ≠ .gated then
      some (live n)
    else none

/-- What becomes of a message at its target (14 R351). -/
inductive MsgFate where
  | accept (tile : Nat)
  | later
  | refuse (code : Nat)
  deriving DecidableEq, Repr

/-- The hart of a launch HARTID stands in its tile while its gang is being stopped: its save has not
ended (14 R351). -/
def State.beingSaved (s : State) (launch : Nat) : Bool :=
  (match s.tileOfLaunch launch with
   | some n => decide (n < 2048)
   | none => false) &&
  (match s.gangOf launch with
   | some g => g.state == .stopping
   | none => false)

/-- The decision of the target (14 R351): a hart that is being saved or loaded refuses for now. -/
def State.msgFate (s : State) (launch ch : Nat) (hdr : Word) : MsgFate :=
  match s.receiver launch with
  | none => .refuse 4
  | some n =>
    let t := s.getTile n
    let c := vget t.channels ch Channel.closed
    if s.beingSaved launch || t.loading then .later
    else if (slice hdr 48 8).toNat ≠ t.tenant then .refuse 3
    else if !c.isOpen then .refuse 1
    else if 16 ≤ c.entries.length + c.reserved then .later
    else .accept n

/-- A message placed in a channel of tile `n`. -/
def State.deliver (s : State) (n ch : Nat) (m : Msg) : State :=
  s.modTile n fun t =>
    let c := vget t.channels ch Channel.closed
    { t with channels := vset t.channels ch { c with entries := c.entries ++ [m] } }

/-! ### The injection queue (14 R350, R351) -/

/-- The target and the channel of an entry. -/
def InjEntry.target (e : InjEntry) : Nat := (slice e.dest 0 23).toNat
def InjEntry.chan (e : InjEntry) : Nat := (slice e.dest 23 3).toNat

def Tile.dropInj (t : Tile) (id : Nat) : Tile := { t with inj := t.inj.filter (·.id != id) }

def Tile.setInj (t : Tile) (e : InjEntry) : Tile :=
  { t with inj := t.inj.map fun x => if x.id = e.id then e else x }

/-- A message placed in the queue; it leaves by the next step unless the model's choice is to leave
it there (log 6). -/
def State.inject (s : State) (kind launch ch : Nat) (data : Vec) (marker : Bool) : State :=
  let e : InjEntry := {
    msg := ⟨msgHeader s.tile.tenant kind 0 s.launchHartid, data⟩
    dest := 0#38 ++ BitVec.ofNat 3 ch ++ BitVec.ofNat 23 launch
    marker := marker, id := s.fresh, sent := none, retryAt := none, paired := false, orphan := false
    ctx := s.tile.ctx }
  let i := s.tile.inj.length
  let s := { s with fresh := s.fresh + 1 }.onTile fun t => { t with inj := t.inj ++ [e] }
  if s.choice.defer then s
  else s.post .msgArrival { EventArg.none with tile := s.cur, n₁ := i }

/-- SEND, SENDV and FENCEM after R40: the checks of the target, the wait for a free entry, and the
entry. -/
def State.sendTo (s : State) (q : Issue) (kind : Nat) (target : BitVec 23) (ch : BitVec 3)
    (data : State → Vec) (wait : Option Nat) (after : State → State) : State :=
  let launch := s.launchId target
  match s.targetFault launch with
  | some code => s.raise ⟨.chanfault, chanTval false code ch.toNat q.word, none⟩
  | none =>
    match wait with
    | some k => s.stay k
    | none =>
      if 16 ≤ s.tile.inj.length then s.stay 0
      else (after (s.inject kind launch ch.toNat (data s) (kind == 2))).finish q

/-- SEND (14 R350). -/
def execSend (st : StallCode) (a b : XReg) (s : State) : Host.Outcome State Fault Refusal :=
  let q : Issue := { word := encode (.send st a b), stall := st, side := true,
                     reads := .x a :: blockReads b }
  .next (s.issue q fun s =>
    let d := s.readX a
    s.sendTo q 0 (slice d 0 23) (slice d 23 3)
      (fun s => 0#256 ++ s.readX (b + 3) ++ s.readX (b + 2) ++ s.readX (b + 1) ++ s.readX b) none id)

/-- SENDV (14 R350). -/
def execSendv (st : StallCode) (a : XReg) (b : VReg) (s : State) :
    Host.Outcome State Fault Refusal :=
  let q : Issue := { word := encode (.sendv st a b), stall := st, side := true,
                     reads := .x a :: vReads [b] }
  .next (s.issue q fun s =>
    let d := s.readX a
    s.sendTo q 1 (slice d 0 23) (slice d 23 3) (·.readV b) (s.queueWait [b] []) (·.popAll [b]))

/-- FENCEM (07 R178): `a` names the target, `b` holds channel and tag. -/
def execFencem (st : StallCode) (a b : XReg) (s : State) : Host.Outcome State Fault Refusal :=
  let q : Issue := { word := encode (.fencem st a b), stall := st, serial := true, side := true,
                     reads := [.x a, .x b] }
  .next (s.issue q fun s =>
    let c := s.readX b
    s.sendTo q 2 (slice (s.readX a) 0 23) (slice c 0 3)
      (fun s => 0#384 ++ (c >>> 3) ++ BitVec.ofNat 64 s.launchHartid) none id)

/-- An entry leaves the queue for good: its sender takes CHANFAULT, unless its gang has ended
(14 R351, R356). -/
def State.endEntry (s : State) (n : Nat) (e : InjEntry) (code : Nat) : State :=
  let s := s.modTile n (·.dropInj e.id)
  if e.orphan then s
  else s.deferTo n ⟨.chanfault, chanTval true code e.chan (BitVec.ofNat 32 e.target), none⟩

/-- An entry of tile `n` reaches its target on this device. -/
def State.arrive (s : State) (n : Nat) (e : InjEntry) : State :=
  match s.msgFate e.target e.chan e.msg.hdr with
  | .accept m => (s.modTile n (·.dropInj e.id)).deliver m e.chan e.msg
  | .later => s.modTile n (·.setInj { e with sent := some s.cc, retryAt := some (s.cc + 256) })
  | .refuse code => s.endEntry n e code

/-- An entry may depart for the first time (14 R351, 07 R178): every earlier one has departed, none
of them waits for the same channel, and every earlier write of the hart has been acknowledged. -/
def Tile.mayDepart (t : Tile) (e : InjEntry) : Bool :=
  let earlier := t.inj.takeWhile (·.id != e.id)
  earlier.all (fun x => x.sent.isSome && x.dest != e.dest) &&
    t.reqs.all fun q => !q.by .eh || !q.writes || decide (e.id < q.id)

/-- What the routers hash of a message: not its sender. -/
def InjEntry.digest (e : InjEntry) : List Nat :=
  [e.dest.toNat, (slice e.msg.hdr 23 41).toNat, e.msg.data.toNat]

/-- With TWIN a message leaves once, after its two copies have been compared (13 R340). -/
def State.comparePairMsg (s : State) (n : Nat) (e : InjEntry) : State :=
  match s.pairOf n with
  | none => s
  | some m =>
    if e.paired then s
    else match (s.getTile m).inj.find? fun x => !x.paired with
      | none => s
      | some x =>
        if sameCopy e.digest x.digest then
          let (p, pe, w, we) := if (s.getTile n).member.twin then (m, x, n, e) else (n, e, m, x)
          (s.modTile p (·.setInj { pe with paired := true })).modTile w (·.dropInj we.id)
        else
          ((s.modTile n (·.dropInj e.id)).modTile m (·.dropInj x.id)).mismatch n

/-- The entry goes out: to a tile of this device, or through a port. A copy of a twin waits for its
comparison. -/
def State.depart (s : State) (n i : Nat) (stop : Bool) : State :=
  match (s.getTile n).inj[i]? with
  | none => s
  | some e =>
    if (s.pairOf n).isSome && !e.paired then s
    else if e.target / 2048 ≠ s.device then
      (s.modTile n (·.setInj { e with sent := some s.cc, retryAt := none })).sendPacket .req e.marker n
        e.id (slice e.msg.hdr 48 8).toNat (e.target / 2048)
    else if stop then s.modTile n (·.setInj { e with sent := some s.cc, retryAt := none })
    else s.arrive n { e with retryAt := none }

/-- The answer to a request of another device leaves on RSP, a refusal in the ORDERED class
(14 R361). -/
def State.answerDevice (s : State) (device tenant : Nat) (refusal : Bool) : State :=
  if device = s.device then s else s.sendPacket .rsp refusal 0 0 tenant device

/-- A message of another device reaches a channel here, and the answer goes back (14 R351). -/
def State.foreignMsg (s : State) (launch ch : Nat) (m : Msg) : State :=
  let back (s : State) (refusal : Bool) : State :=
    s.answerDevice ((slice m.hdr 11 12).toNat) ((slice m.hdr 48 6).toNat) refusal
  match s.msgFate launch ch m.hdr with
  | .accept n => back (s.deliver n ch m) false
  | .later | .refuse _ => back s true

/-- MSG_ARRIVAL: entry `n₁` of a tile's queue departs, with `flag` without arriving yet, or arrives
at its target (14 R351). At another device its acceptance frees it. With `n₂` = 1 a message arrives
from another device: target `n₃`, channel `w₁`, header `w₂`. -/
def execMsgArrival (s : State) : Host.Outcome State Fault Refusal :=
  let a := s.arg
  .next (if a.n₂ = 1 then
      s.foreignMsg a.n₃ (slice a.w₁ 0 3).toNat ⟨a.w₂, a.vec⟩
    else match (s.getTile a.tile).inj[a.n₁]? with
      | none => s
      | some e =>
        if 2048 ≤ a.tile ∨ e.retryAt.isSome ∨ s.inPort e.id then s
        else if e.sent.isNone then
          (if (s.getTile a.tile).mayDepart e then
             (s.comparePairMsg a.tile e).depart a.tile a.n₁ a.flag
           else s)
        else if e.target / 2048 = s.device then s.arrive a.tile e
        else s.modTile a.tile (·.dropInj e.id))

/-- MSG_RETRY: a message refused for now is sent again after 256 cc (14 R351). -/
def execMsgRetry (s : State) : Host.Outcome State Fault Refusal :=
  let a := s.arg
  .next (match (s.getTile a.tile).inj[a.n₁]? with
    | none => s
    | some e => match e.retryAt with
      | none => s
      | some t => if 2048 ≤ a.tile ∨ s.cc < t then s else s.depart a.tile a.n₁ a.flag)

/-! ### Receiving (14 R352, R353) -/

/-- The channel number in a register (14 R349). -/
def State.chanOf (s : State) (a : XReg) : Nat := (slice (s.readX a) 0 3).toNat

/-- The oldest entry popped: a receive (07 R157). -/
def State.popMsg (s : State) (ch : Nat) : State :=
  let c := s.channel ch
  (s.setChannel ch { c with entries := c.entries.drop 1 }).acquire

/-- Header and four data words into X[A] to X[A+4]; A = 0 writes nothing. -/
def State.landMsg (s : State) (d : XReg) (m : Msg) : State :=
  if d = 0 then s
  else (((((s.commitX d m.hdr).commitX (d + 1) (slice m.data 0 64)).commitX (d + 2)
    (slice m.data 64 64)).commitX (d + 3) (slice m.data 128 64)).commitX (d + 4)
      (slice m.data 192 64))

def recvWrites (d : XReg) : List RegRef := if d = 0 then [] else .x (d + 4) :: blockReads d

/-- RECV (14 R352). -/
def execRecv (st : StallCode) (d a : XReg) (s : State) : Host.Outcome State Fault Refusal :=
  let q : Issue := { word := encode (.recv st d a), stall := st, side := true, reads := [.x a],
                     writes := recvWrites d }
  .next (s.issue q fun s =>
    let ch := s.chanOf a
    if !(s.channel ch).isOpen then s.raise ⟨.chanfault, chanTval false 1 ch q.word, none⟩
    else match (s.channel ch).entries with
      | [] => s.stay 0
      | m :: _ => ((s.popMsg ch).landMsg d m).finish q)

/-- RECVV (14 R352). -/
def execRecvv (st : StallCode) (d : VReg) (a : XReg) (s : State) :
    Host.Outcome State Fault Refusal :=
  let q : Issue := { word := encode (.recvv st d a), stall := st, side := true, reads := [.x a],
                     writes := [.v d.toNat] }
  .next (s.issue q fun s =>
    let ch := s.chanOf a
    if !(s.channel ch).isOpen then s.raise ⟨.chanfault, chanTval false 1 ch q.word, none⟩
    else match (s.channel ch).entries with
      | [] => s.stay 0
      | m :: _ => match s.queueWait [] [d] with
        | some k => s.stay k
        | none => ((s.popMsg ch).commitVR d m.data).finish q)

/-- RECVTRY (14 R352). -/
def execRecvtry (st : StallCode) (d a : XReg) (s : State) : Host.Outcome State Fault Refusal :=
  let q : Issue := { word := encode (.recvtry st d a), stall := st, side := true, reads := [.x a],
                     writes := recvWrites d }
  .next (s.issue q fun s =>
    let ch := s.chanOf a
    if !(s.channel ch).isOpen then s.raise ⟨.chanfault, chanTval false 1 ch q.word, none⟩
    else match (s.channel ch).entries with
      | [] => (s.commitX d 0).finish q
      | m :: _ => ((s.popMsg ch).landMsg d m).finish q)

/-- CHOPEN (14 R353). -/
def execChopen (st : StallCode) (a : XReg) (s : State) : Host.Outcome State Fault Refusal :=
  let q : Issue := { word := encode (.chopen st a), stall := st, reads := [.x a] }
  .next (s.issue q fun s =>
    let ch := s.chanOf a
    (s.setChannel ch { s.channel ch with isOpen := true }).finish q)

/-- CHCLOSE (14 R353). -/
def execChclose (st : StallCode) (d a : XReg) (s : State) : Host.Outcome State Fault Refusal :=
  let q : Issue := { word := encode (.chclose st d a), stall := st, reads := [.x a],
                     writes := [.x d] }
  .next (s.issue q fun s =>
    let ch := s.chanOf a
    if s.tile.remote.any (·.chan == ch) then s.stay 0
    else
      let n := (s.channel ch).entries.length
      ((s.setChannel ch { s.channel ch with isOpen := false, entries := [] }).commitX d
        (BitVec.ofNat 64 n)).finish q)

/-! ### RLD and RST (14 R354) -/

/-- RLD and RST after R40. -/
def State.remoteAccess (s : State) (q : Issue) (write : Bool) (va c : Word) (data : Vec) : State :=
  let ch := (slice c 0 3).toNat
  let f : Form := { kind := if write then .store else .load, align := 64, net := true }
  match s.check f va with
  | .error e => s.raise e
  | .ok x =>
    let chan := s.channel ch
    let device := x.pa / 2 ^ 44
    if !chan.isOpen then s.raise ⟨.chanfault, chanTval false 1 ch q.word, none⟩
    else if !s.isLocal x.pa ∧ s.outOfBox s.tile.tenant device then
      s.raise ⟨.chanfault, chanTval false 3 ch q.word, none⟩
    else if s.acquiring || decide (16 ≤ chan.entries.length + chan.reserved) then s.stay 0
    else
      let id := s.fresh
      let r : RemoteReq := {
        id := id, write := write, va := va, accs := x.words 64 0 data.toNat, chan := ch
        tag := (slice c 48 16).toNat, ctx := s.tile.ctx, sent := s.cc, paired := false
        parked := none, arrival := 0 }
      let s := { s with fresh := id + 1 }.onTile fun t => { t with remote := t.remote ++ [r] }
      let s := s.setChannel ch { s.channel ch with reserved := (s.channel ch).reserved + 1 }
      (if !s.isLocal x.pa then s.sendPacket .req false s.cur id s.tile.tenant device
       else if s.choice.defer then s
       else s.post .rldRstReply { EventArg.none with tile := s.cur, n₁ := id }).finish q

/-- RLD (14 R354). -/
def execRld (st : StallCode) (a b : XReg) (s : State) : Host.Outcome State Fault Refusal :=
  let q : Issue := { word := encode (.rld st a b), stall := st, side := true, reads := [.x a, .x b] }
  .next (s.issue q fun s => s.remoteAccess q false (s.readX a) (s.readX b) 0)

/-- RST (14 R354). -/
def execRst (st : StallCode) (v : VReg) (a b : XReg) (s : State) :
    Host.Outcome State Fault Refusal :=
  let q : Issue := { word := encode (.rst st v a b), stall := st, side := true,
                     reads := .x a :: .x b :: vReads [v] }
  .next (s.issue q fun s =>
    match s.queueWait [v] [] with
    | some k => s.stay k
    | none =>
      let data := s.readV v
      let s' := s.remoteAccess q true (s.readX a) (s.readX b) data
      if s'.tile.remote.length = s.tile.remote.length then s' else s'.popAll [v])

/-- An RLD or RST of the tile in focus as a request at its home. -/
def State.asReq (s : State) (r : RemoteReq) : Req :=
  { s.newReq (if r.write then .store else .load) (r.accs.map fun a => { a with mt := true }) .none
      r.va with
    id := r.id, unit := .eh, ctx := r.ctx, arrival := r.arrival }

def State.setRemote (s : State) (r : RemoteReq) : State :=
  s.onTile fun t => { t with remote := t.remote.map fun x => if x.id = r.id then r else x }

/-- The entry that a request reserved is freed, and the request is over. -/
def State.dropRemote (s : State) (r : RemoteReq) : State :=
  let s := s.onTile fun t => { t with remote := t.remote.filter (·.id != r.id) }
  s.setChannel r.chan { s.channel r.chan with reserved := (s.channel r.chan).reserved - 1 }

/-- The reply of a request that has been performed, or its error (14 R354, R347). -/
def State.replyRemote (s : State) (r : RemoteReq) (e : Option Deferred) : State :=
  let s := s.dropRemote r
  match e with
  | some d => s.deliverError d
  | none =>
    let h := msgHeader s.tile.tenant (if r.write then 4 else 3) r.tag s.launchHartid
    s.deliver s.cur r.chan ⟨h, if r.write then 0 else overlay (0 : Vec) r.accs⟩

/-- Something at the home holds up an RLD or RST: an earlier access of the hart, or a condition of
the line. -/
def State.remoteObstacle (s : State) (r : RemoteReq) : Option Obstacle :=
  let q := s.asReq r
  if r.write && s.tile.reqs.any fun p => p.by .eh && p.writes && decide (p.id < r.id) then
    some .wait
  else s.obstacle q

/-- An RLD or RST parks at its home, unless the fault queue there is full (08 R197, R198). -/
def State.parkRemote (s : State) (r : RemoteReq) (p : Parked) : State :=
  if p != .held && r.parked.isNone && s.faultQueueFull (s.homeSlice r.accs) then s
  else { s with fresh := s.fresh + 1 }.setRemote { r with parked := some p, arrival := s.fresh }

/-- With TWIN an RST leaves once, after its two copies have been compared (13 R340). -/
def State.comparePairRst (s : State) (r : RemoteReq) : State :=
  match s.pairOf s.cur with
  | none => s
  | some m =>
    let dig (x : RemoteReq) : List Nat := x.accs.flatMap fun a => [a.pa, a.data]
    if !r.write || r.paired then s
    else match (s.getTile m).remote.find? fun x => x.write && !x.paired with
      | none => s
      | some x =>
        let done (y : RemoteReq) : RemoteReq :=
          { y with paired := true, accs := y.accs.map fun a => { a with done := true } }
        let same := sameCopy (dig r) (dig x)
        let mine := if same && !s.tile.member.twin then { r with paired := true } else done r
        let theirs := if same && s.tile.member.twin then { x with paired := true } else done x
        let s := (s.setRemote mine).atTile m (·.setRemote theirs)
        if same then s else s.mismatch s.cur

/-- An RLD or RST of the tile in focus is taken up at its home; `which` selects its pieces. -/
def State.serveRemote (s : State) (id : Nat) (which : Nat → Bool) : State :=
  match s.tile.remote.find? (·.id == id) with
  | none => s
  | some r =>
    if r.parked.isSome then s
    else match s.remoteObstacle r with
      | some .wait | some .accepted => s
      | some (.park p) => s.parkRemote r p
      | none =>
        if s.needsRetry (s.asReq r) then (s.detectAll (s.asReq r)).parkRemote r .retry else
        let s := s.comparePairRst r
        match s.tile.remote.find? (·.id == id) with
        | none => s
        | some r =>
          if (s.pairOf s.cur).isSome && r.write && !r.paired then s
          else
            let step (p : State × RemoteReq × Option Deferred) (ai : Acc × Nat) :
                State × RemoteReq × Option Deferred :=
              let (s, r, e) := p
              let (a, i) := ai
              if a.done || !which i then p
              else if r.write then
                let (s, a, e') := s.storeAcc (s.asReq r) { a with mt := true }
                (s, { r with accs := setNth r.accs i a }, e.or e')
              else
                let (s, a, e') := s.loadAcc { s.asReq r with error := e } { a with mt := true }
                (s, { r with accs := setNth r.accs i a }, e.or e')
            let (s, r, e) := r.accs.zipIdx.foldl step (s, r, none)
            if e.isSome then s.replyRemote r e
            else if !(r.accs.all (·.done)) then s.setRemote r
            else
              let s := if r.write then
                  (s.cleanseCovered (s.asReq r)).mailboxTriggers
                    ((r.accs.filter fun a => s.isLocal a.pa).map fun a => (localAddr a.pa, a.size))
                else s
              s.replyRemote r none

/-- RLD_RST_REPLY: request `n₁` of a tile is performed at its home, with `flag` only the words that
`w₁` names, and its reply fills the reserved entry (14 R354). -/
def execRldRstReply (s : State) : Host.Outcome State Fault Refusal :=
  .next (s.atTile s.arg.tile fun s => s.serveRemote s.arg.n₁ s.arg.pieces)

/-! ### The ends of requests for other devices (14 R356, R358, R368) -/

/-- The fault of an ordinary access that a refusal or a timeout ends (14 R368, R358). -/
def Req.farError (q : Req) (code : Nat) : Deferred :=
  if code = 5 || q.engine.isSome then
    q.fault (match q.kind with
      | .load => .loadfault
      | .store | .amo _ | .cas _ | .etch _ _ _ => .storefault) reasonUNREACHABLE
  else ⟨Cause.chanfault.code, chanTval true code 0 0, none⟩

/-- A request of the tile in focus is ended by a refusal or a timeout (14 R368). -/
def State.endFar (s : State) (id code : Nat) : State :=
  match s.tile.inj.find? (fun e => e.id == id && e.target / 2048 != s.device) with
  | some e =>
    if code = 0 then
      s.onTile (·.setInj { e with retryAt := some (s.cc + 256) })
    else s.endEntry s.cur e code
  | none =>
    match s.tile.remote.find? (fun r => r.id == id && r.accs.any fun a => !s.isLocal a.pa) with
    | some r =>
      (s.dropRemote r).deferTo s.cur ⟨.chanfault, chanTval true code r.chan 0, none⟩
    | none =>
      match s.req id with
      | none => s
      | some q =>
        if s.farDevices q.accs = [] then s
        else
          (s.setReq { q with error := some (q.farError code), answered := true }).respond id

/-- REFUSAL_ARRIVAL: a refusal reaches the source of request `n₁`: code `n₂`, 5 for a blocked path,
3 for the tenant, 0 for now, and otherwise the code of 14 R356. -/
def execRefusalArrival (s : State) : Host.Outcome State Fault Refusal :=
  .next (s.atTile s.arg.tile fun s => if s.inPort s.arg.n₁ then s else s.endFar s.arg.n₁ s.arg.n₂)

/-- The control clock of the latest departure of a request (14 R368). -/
def Tile.sentAt (t : Tile) (id : Nat) : Option Nat :=
  ((t.inj.find? (·.id == id)).bind fun e => if e.retryAt.isSome then none else e.sent).or
    (((t.remote.find? (·.id == id)).map (·.sent)).or ((t.reqs.find? (·.id == id)).map (·.sent)))

/-- REMOTE_TIMEOUT: nothing has come for request `n₁` within 2^24 cc of its departure (14 R368). -/
def execRemoteTimeout (s : State) : Host.Outcome State Fault Refusal :=
  .next (s.atTile s.arg.tile fun s =>
    match s.tile.sentAt s.arg.n₁ with
    | none => s
    | some t => if s.inPort s.arg.n₁ ∨ s.cc < t + 2 ^ 24 then s else s.endFar s.arg.n₁ 5)

/-! ### Routers (14 R364, R358, R367) -/

/-- The rank of a class at an egress, highest first (14 R364). -/
def PacketClass.rank : PacketClass → Nat
  | .ctl => 4 | .bsp => 3 | .rsp => 2 | .fwd => 1 | .req => 0

/-- The number of a packet in its input's turn after the input of its class that was served last. -/
def Port.turnOf (p : Port) (k : Packet) : Nat := (k.input + 9 - (vget p.last k.cls.rank 8 + 1)) % 9

/-- `a` goes before `b` at an egress (14 R364). -/
def Port.before (p : Port) (a b : Packet) : Bool :=
  if a.age = 16 ∨ b.age = 16 then
    if a.age ≠ 16 then false
    else if b.age ≠ 16 then true
    else decide (a.arrived < b.arrived ∨ (a.arrived = b.arrived ∧ a.input < b.input))
  else if a.cls.rank ≠ b.cls.rank then decide (b.cls.rank < a.cls.rank)
  else decide (p.turnOf a < p.turnOf b)

/-- The packet that leaves next: the earliest of those that no other goes before. -/
def Port.winner (p : Port) : Option Packet :=
  p.waiting.find? fun k => !(p.waiting.any fun x => p.before x k)

/-- A request has left the device: its timeout counts from now (14 R368). -/
def State.departed (s : State) (k : Packet) : State :=
  if k.input ≠ ownInput ∨ !k.request then s
  else s.modTile k.tile fun t => { t with
    inj := t.inj.map fun e => if e.id = k.req then { e with sent := some s.cc } else e
    remote := t.remote.map fun r => if r.id = k.req then { r with sent := s.cc } else r
    reqs := t.reqs.map fun q => if q.id = k.req then { q with sent := s.cc } else q }

/-- The classes by number. -/
def packetClass (n : Nat) : PacketClass :=
  if n = 0 then .req else if n = 1 then .fwd else if n = 2 then .rsp else if n = 3 then .ctl else .bsp

/-- A packet of another device that an event brings to input port `n₁`: class `n₂`; in `w₁` tenant
[5:0], rows less one [7:6], second virtual channel [8], Valiant [9], before its intermediate device
[10], detoured in A [11] and in B [12]; in `w₂` target [11:0], intermediate device [27:16] and
source [43:32]. -/
def State.transitPacket (s : State) (a : EventArg) : Packet :=
  let field (i : Nat) : Nat := (slice a.w₂ i 12).toNat
  let cls := packetClass a.n₂
  { cls := cls, tenant := (slice a.w₁ 0 6).toNat, input := a.n₁ % 8, request := decide (a.n₂ = 0)
    tile := 0, req := 0, source := field 32, target := field 0
    mid := if bitAt a.w₁ 10 then some (field 16) else none
    valiant := bitAt a.w₁ 9
    late := [0, 1].filter fun d => bitAt a.w₁ (11 + d)
    dim := a.n₁ % 8 / 2, one := bitAt a.w₁ 8, inVc := vcOf cls (bitAt a.w₁ 8)
    rows := min 3 (1 + (slice a.w₁ 6 2).toNat), age := 0, waited := s.cc, arrived := s.cc }

/-- A packet from a link is taken into the receive buffer of its port, where it has room, and joins
the egress of its next hop; at its target it leaves the fabric (14 R359, R366). -/
def State.transit (s : State) (k : Packet) : State :=
  let p := s.port k.input
  if !p.up || p.retraining || !s.hasRows k.input k.inVc k.rows then s else s.enqueue k

/-- ROUTER_ARBITRATE: a slot of port `n₁` frees and a packet is chosen and forwarded (14 R364,
R358, R367). With `flag` a packet arrives from the device behind the port instead. -/
def execRouterArbitrate (s : State) : Host.Outcome State Fault Refusal :=
  let a := s.arg
  let p := a.n₁ % 8
  .next (if a.flag then s.transit (s.transitPacket a)
    else if (s.port p).retraining then s
    else match (s.port p).winner with
      | none => s
      | some k =>
        let s := s.setPort p fun x => { x with
          waiting := x.waiting.erase k, last := vset x.last k.cls.rank k.input }
        if s.blockedPort p then s.enqueue k
        else if !(bitAt (s.port p).tenants k.tenant) then
          (s.record (portBank p) 6 false false 0 p).refuse k 3
        else s.departed k)

/-- ROUTER_AGE_TICK: the age of each packet rises by 1 for each 64 cc that it has waited, up to 16
(14 R364). -/
def execRouterAgeTick (s : State) : Host.Outcome State Fault Refusal :=
  let tick (k : Packet) : Packet :=
    let n := (s.cc - k.waited) / 64
    { k with age := min 16 (k.age + n), waited := k.waited + 64 * n }
  .next { s with ports := vmap (fun p => { p with waiting := p.waiting.map tick }) s.ports }

/-! ### Links (14 R365, R366, R369) -/

/-- LINK_RETRAIN: port `n₁` begins to retrain, or ends with `n₂` lanes; traffic is held meanwhile
(14 R365). -/
def execLinkRetrain (s : State) : Host.Outcome State Fault Refusal :=
  let a := s.arg
  .next (if a.flag then s.setPort (a.n₁ % 8) fun p => { p with retraining := true }
    else s.setPort (a.n₁ % 8) fun p => { p with
      retraining := false
      lanes := if a.n₂ = 8 ∨ a.n₂ = 4 ∨ a.n₂ = 2 then a.n₂ else p.lanes })

/-- The stage of merged virtual channels for a number of rows (14 R366): 4 is a link taken down. -/
def mergeStage (rows : Nat) : Nat :=
  if rows < 24 then 4 else if rows < 30 then 3 else if rows < 42 then 2 else if rows < 48 then 1 else 0

/-- VC_MERGE: `n₂` rows of the receive buffer of port `n₁` are retired (14 R366). -/
def execVcMerge (s : State) : Host.Outcome State Fault Refusal :=
  .next (s.setPort (s.arg.n₁ % 8) fun p =>
    let rows := p.rows - s.arg.n₂
    { p with rows := rows, stage := mergeStage rows, up := p.up && decide (mergeStage rows ≠ 4) })

/-- LINK_AUDIT: the link of bank `n₁`, once it has drained (`flag`), holds `n₂` permits and `n₃`
free slots of `w₁` configured ones (14 R369). -/
def execLinkAudit (s : State) : Host.Outcome State Fault Refusal :=
  let a := s.arg
  .next (if !a.flag ∨ !bankExists a.n₁ ∨ a.n₁ / 4096 ≠ 3 then s
    else
      let slots := match s.links.find? (·.bank == a.n₁) with
        | some l => l.slots
        | none => a.w₁.toNat
      let put (s : State) (l : Link) : State :=
        { s with links := l :: s.links.filter (·.bank != a.n₁) }
      if a.n₂ + a.n₃ = slots then put s ⟨a.n₁, slots, a.n₂, a.n₃⟩
      else put (s.record a.n₁ 5 false false 0 a.n₁) ⟨a.n₁, slots, slots - a.n₃, a.n₃⟩)

end Sys2Proof.Machine
end

