-- ==== Sys2Proof/Machine/Compact.lean ====
section
/-! DEFINITION. Compacts: signing, supersteps and the hatch fabric, dissolving, barrier domains,
snapshots and rollback, and the loads and writes that pinned ranges hold up (13, 19 R449). -/
namespace Sys2Proof.Machine

/-! ### Members and compacts -/

/-- The compact that a member belongs to. -/
def State.compactOf (s : State) (n : Nat) : Option Compact :=
  let m := (s.getTile n).member
  if m.phase = .free then none else s.compacts.find? (·.num == m.compact)

def State.setCompact (s : State) (c : Compact) : State :=
  { s with compacts := s.compacts.map fun (x : Compact) => if x.num = c.num then c else x }

def State.modCompact (s : State) (num : Nat) (f : Compact → Compact) : State :=
  { s with compacts := s.compacts.map fun (x : Compact) => if x.num = num then f x else x }

def State.modMember (s : State) (n : Nat) (f : Member → Member) : State :=
  s.modTile n fun t => { t with member := f t.member }

/-- A member is FREE again: what `f` keeps stays with its hart, also where that has been saved
(13 R314, R342). -/
def State.freeMember (s : State) (num n : Nat) (f : Member → Member) : State :=
  let k := s.hartOfMember num n
  (s.modMember n fun _ => Member.free).modMember k fun _ => f (s.getTile k).member

/-- The code of a phase (13 R314). -/
def Phase.code : Phase → Nat
  | .free => 0 | .signing => 1 | .compute => 2 | .transfer => 3 | .barrier => 4 | .dissolving => 5

/-- A number for a hart of a peer domain, apart from those of this domain (13 R317, R330). -/
def domainHart (xdom hart : Nat) : Nat := xdom * 2 ^ 23 + hart

/-- The dies that hold members on this device. -/
def Compact.dies (c : Compact) : List Nat := (c.members.map fun m => dieOf m.tile).eraseDups

/-- The tiles of this device that have to arrive. -/
def State.wanted (s : State) (c : Compact) : List Nat :=
  (c.harts.map (fun h => domainHart h.2 h.1) ++ (if c.twin then c.twins else [])).filterMap
    fun h => if h / 2048 = s.device then some (h % 2048) else none

/-- Every local tile has arrived; `far` says that the others have (13 R330). -/
def State.allArrived (s : State) (c : Compact) (far : Bool) : Bool :=
  (s.wanted c).all (c.arrived.contains ·) && (!c.far || far)

/-- TVAL of CSIGNFAIL (13 R320). -/
def csignTval (code index : Nat) : Word := 0#36 ++ BitVec.ofNat 20 index ++ BitVec.ofNat 8 code

/-- A BSP instruction inside a task is illegal (13 R315). -/
def State.inTask (s : State) : Bool := s.tile.tasks.running.isSome

/-! ### BARSTAT (13 R333) -/

/-- An arrival of this kind of instruction stands in a domain. A BARSTAT that software has written
does not say whose arrival it is, and serves each of them (DEDUCED, log 69). -/
def Tile.stands (t : Tile) (b : Barrier) (dom : Nat) : Bool :=
  bitAt t.cr.barstat 63 && (slice t.cr.barstat 32 6).toNat == dom &&
    (t.member.barrier.isNone || t.member.barrier == some b)

def Tile.arrivalGen (t : Tile) : BitVec 32 := slice t.cr.barstat 0 32

/-- An arrival recorded. -/
def State.noteArrival (s : State) (b : Barrier) (dom : Nat) (gen : BitVec 32) : State :=
  s.onTile fun t => { t with
    cr := { t.cr with barstat := 1#1 ++ 0#25 ++ BitVec.ofNat 6 dom ++ gen }
    member := { t.member with barrier := some b, left := none } }

/-- BARSTAT without its arrival. -/
def Tile.noArrival (t : Tile) : Tile :=
  { t with
    cr := { t.cr with barstat := setSlice t.cr.barstat 63 1 0#1 }
    member := { t.member with barrier := none, left := none } }

/-- The arrival is completed: an acquire (13 R332, R333). -/
def State.endArrival (s : State) : State :=
  (s.onTile (·.noArrival)).acquire

/-- The other devices of the domain that hold members or twins of a compact. -/
def State.memberDevices (s : State) (c : Compact) : List Nat :=
  (c.harts.map (fun h => domainHart h.2 h.1) ++ c.twins).filterMap fun h =>
    if s.peers.contains (h / 2048) && h / 2048 != s.device then some (h / 2048) else none

/-- The tile in focus arrives at the barrier of its compact. Control packets carry the arrival to
the other devices (13 R330, 14 R361). -/
def State.arriveCompact (s : State) (c : Compact) : State :=
  (s.setCompact { c with arrived := insertNat c.arrived s.cur }).sendOrdered .ctl s.tile.tenant
    (s.memberDevices c)

/-- The next step at a compact whose members on this device have all arrived, unless the model's
choice is to leave it waiting (log 6). -/
def State.whenAll (s : State) (num : Nat) (i : Instr) : State :=
  match s.compacts.find? (·.num == num) with
  | none => s
  | some c =>
    if s.choice.defer || !s.allArrived c false then s
    else s.post i { EventArg.none with n₁ := num }

/-- A verdict on the member is taken at a barrier instruction (13 R318, R338, R343). A member that
is still pinned has given up its superstep, so that it can execute CDISS (13 R343, log 38). -/
def State.takeVerdict (s : State) (v : Verdict) : State :=
  let m := s.tile.member
  let s := s.modCompact m.compact fun c =>
    if m.phase = .free then c else { c with arrived := removeNat c.arrived s.cur }
  (s.endArrival.modMember s.cur fun m => { m with
    verdict := none
    phase := if m.phase = .free then .free else .compute }).raise
    ⟨.csignfail, csignTval v.code v.index, v.mfinfo⟩

/-! ### Signing (13 R316–R320) -/

/-- The fields of a descriptor (13 R316). -/
structure SignDesc where
  words : List Word
  deriving DecidableEq, Repr

def SignDesc.w (d : SignDesc) (i : Nat) : Word := d.words.getD i 0
def SignDesc.load (d : SignDesc) : Bool := bitAt (d.w 0) 32
def SignDesc.snap (d : SignDesc) : Bool := bitAt (d.w 0) 33
def SignDesc.twin (d : SignDesc) : Bool := bitAt (d.w 0) 34
def SignDesc.bdom (d : SignDesc) : Nat := (slice (d.w 0) 48 6).toNat
def SignDesc.nmem (d : SignDesc) : Nat := (slice (d.w 1) 0 20).toNat

/-- Code 2 for a descriptor (13 R316, R320). -/
def SignDesc.bad (d : SignDesc) : Bool :=
  decide (slice (d.w 0) 35 5 ≠ 0) || decide (slice (d.w 0) 54 10 ≠ 0) ||
    decide (slice (d.w 1) 20 4 ≠ 0) || decide (slice (d.w 1) 32 32 ≠ 0) ||
    decide (d.nmem = 0) || (d.twin && !d.snap) || (d.words.drop 4).any (· != 0) ||
    decide ((d.w 2).toNat % 32 ≠ 0) || decide ((d.w 3).toNat % 8 ≠ 0)

/-- An entry of the member table (13 R317). -/
structure SignEntry where
  w0 : Word
  w1 : Word
  back : Word
  snapa : Word
  deriving DecidableEq, Repr

def SignEntry.hart (e : SignEntry) : Nat := (slice e.w0 0 23).toNat
def SignEntry.first (e : SignEntry) : Nat := (slice e.w0 24 3).toNat
def SignEntry.segs (e : SignEntry) : Nat := (slice e.w0 28 3).toNat + 1
def SignEntry.xdom (e : SignEntry) : Nat := (slice e.w0 32 16).toNat
def SignEntry.twinhart (e : SignEntry) : Nat := (slice e.w1 0 23).toNat

/-- Code 2 for a member entry (13 R317, R320). -/
def SignEntry.bad (e : SignEntry) (d : SignDesc) : Bool :=
  bitAt e.w0 23 || bitAt e.w0 27 || bitAt e.w0 31 || decide (slice e.w0 48 16 ≠ 0) ||
    decide (slice e.w1 23 41 ≠ 0) || decide (e.hart / 2048 = 0xFFF) || decide (8 < e.first + e.segs) ||
    decide (slice e.back 0 16 ≠ 0) || decide (slice e.snapa 0 16 ≠ 0) ||
    (!d.snap && decide (e.snapa ≠ 0)) ||
    (if d.twin then decide (e.twinhart / 32 = e.hart / 32) || decide (e.twinhart / 2048 = 0xFFF)
     else decide (e.w1 ≠ 0))

/-- The entries of a member table. -/
def signEntries : List Word → List SignEntry
  | a :: b :: c :: d :: rest => ⟨a, b, c, d⟩ :: signEntries rest
  | _ => []

/-- Barrier domain `dom` of a die is in use: defined by BARDOM, or that of a compact (13 R320,
R334). -/
def State.domainOf (s : State) (die dom : Nat) : Option Domain :=
  s.domains.find? fun d => d.die == die && d.num == dom

def Compact.holdsDomain (c : Compact) (die dom : Nat) : Bool :=
  c.bdom == dom && (c.dies.contains die)

/-- The compact in signing that a member joins: one of its context and domain on its die, or one
whose table names its tile. -/
def State.joins (s : State) (die dom ctx hart : Nat) : Option Compact :=
  s.compacts.find? fun c => !c.signed && c.ctx == ctx && c.bdom == dom &&
    (c.dies.contains die || c.harts.contains (hart, 0) || c.twins.contains hart)

/-- The tile's domains (15). -/
def Tile.grants (t : Tile) (dom : Nat) : Bool :=
  match t.place with
  | some p => bitAt p.domains dom
  | none => false

/-- Code 6 at a CSIGN: the domain is not granted, or is in use, by this rule also where the table of
pins is full (13 R320). -/
def State.domainRefused (s : State) (dom : Nat) (joined : Option Compact) : Bool :=
  let die := dieOf s.cur
  !s.tile.grants dom || (s.domainOf die dom).isSome || decide (4096 ≤ s.pins.length) ||
    s.compacts.any fun c => c.holdsDomain die dom && (match joined with
      | some j => c.num != j.num
      | none => true)

/-- A failed signing: the member takes CSIGNFAIL and stays FREE. -/
def State.signFail (s : State) (code index : Nat) (m : Option Word) : State :=
  s.raise ⟨.csignfail, csignTval code index, m⟩

/-- What a CSIGN has read: descriptor, entries, schedule words, the member's entry, its index, and
whether it is the twin. -/
structure Signing where
  desc : SignDesc
  table : List Word
  image : List Word
  entry : SignEntry
  index : Nat
  twin : Bool
  deriving DecidableEq, Repr

/-- Why signing does not go on: a refusal with its code, the member index and MFINFO; a walk that is
waited for; or a read that is held. -/
inductive SignFail where
  | code (code index : Nat) (mfinfo : Option Word)
  | walk (t : Trap)
  | held
  deriving DecidableEq, Repr

/-- A failed access of signing: code 8 (13 R320), or a wait. -/
def SignFail.ofTrap (index : Nat) (t : Trap) : SignFail :=
  if t.cause = .waits then .walk t else .code 8 index t.mfinfo

/-- The same of a failed read; `index` is that of the member where it is known. -/
def SignFail.ofRead (index : Nat) (f : ReadFail) : SignFail :=
  match f with
  | .trap t => .ofTrap index t
  | .held | .lost => .held

/-- A CSIGN that does not go on. -/
def State.signStop (s : State) (f : SignFail) : State :=
  match f with
  | .code c i m => s.signFail c i m
  | .walk t => s.raise t
  | .held => s.stay 0

/-- The reads of CSIGN and the checks of codes 2 and 3 (13 R318, step 1). -/
def State.readSigning (s : State) (va : Word) : State × Except SignFail Signing :=
  let fail8 (index : Nat) (f : ReadFail) : Except SignFail Signing := .error (.ofRead index f)
  match s.readWords va 16 with
  | (s, .error t) => (s, fail8 0 t)
  | (s, .ok ws) =>
    let d : SignDesc := ⟨ws⟩
    if d.bad then (s, .error (.code 2 0 none))
    else match s.readWords (d.w 2) (4 * d.nmem) with
      | (s, .error t) => (s, fail8 0 t)
      | (s, .ok table) =>
        let es := signEntries table
        let me := s.device * 2048 + s.cur
        let mine := es.zipIdx.flatMap fun p =>
          (if domainHart p.1.xdom p.1.hart = me then [(p.1, p.2, false)] else []) ++
          (if d.twin ∧ domainHart p.1.xdom p.1.twinhart = me then [(p.1, p.2, true)] else [])
        match mine with
        | [(e, i, twin)] =>
          if e.bad d then (s, .error (.code 2 i none))
          else if d.w 3 = 0 then (s, .ok ⟨d, table, [], e, i, twin⟩)
          else (match s.readWords (d.w 3) 1 with
            | (s, .error t) => (s, fail8 i t)
            | (s, .ok h) =>
              let n := (slice (h.getD 0 0) 16 16).toNat
              match s.readWords (d.w 3 + 8) n with
              | (s, .error t) => (s, fail8 i t)
              | (s, .ok l) => (s, .ok ⟨d, table, h ++ l, e, i, twin⟩))
        | _ => (s, .error (.code 3 0 none))

/-- The pages at an address, each checked as one that needs R and W (13 R318). -/
def State.signPages (s : State) (va : Word) : Nat → Except Trap (List Nat)
  | 0 => .ok []
  | n + 1 =>
    match s.check { kind := .atomic, align := 0, loads := true } va with
    | .error e => .error e
    | .ok x => match s.signPages (va + 0x10000) n with
      | .error e => .error e
      | .ok l => .ok (x.pa :: l)

/-- The backing pages and the snapshot pages, or the first failure in ascending address (13
R318). -/
def State.signRanges (s : State) (e : SignEntry) (n : Nat) : Except Trap (List Nat × List Nat) :=
  match s.signPages e.back e.segs, s.signPages e.snapa n with
  | .ok a, .ok b => .ok (a, b)
  | .error t, .ok _ | .ok _, .error t => .error t
  | .error t, .error u => .error (if t.tval.toNat ≤ u.tval.toNat then t else u)

/-- The segments of a range as bits of SEGMODE.SP. -/
def rangeMask (first n : Nat) : BitVec 8 :=
  (List.range n).foldl (fun m i => m ||| (1#8 <<< (first + i))) 0

/-- The compact as its first member to sign sees it. -/
def State.newCompact (s : State) (g : Signing) : Compact :=
  let es := signEntries g.table
  let harts := es.map fun e => (e.hart, e.xdom)
  let twins := if g.desc.twin then es.map fun e => domainHart e.xdom e.twinhart else []
  { num := s.nextCompact
    cid := slice (g.desc.w 0) 0 32
    bdom := g.desc.bdom
    ctx := s.tile.ctx
    load := g.desc.load
    snap := g.desc.snap
    twin := g.desc.twin
    snapInt := (slice (g.desc.w 1) 24 8).toNat
    nmem := g.desc.nmem
    harts := harts
    twins := twins
    members := []
    far := harts.any (fun h => h.2 != 0 || h.1 / 2048 != s.device) ||
      twins.any fun h => h / 2048 != s.device
    signed := false
    signing := []
    since := s.cc
    tmo := (slice (g.desc.w 0) 40 8).toNat
    image := g.image
    len := 1
    sched := []
    arrived := []
    gen := 0
    released := []
    slots := []
    beats := []
    copies := []
    remoteIn := []
    snapAt := 0
    rollbacksHere := 0
    rollbacks := 0
    mismatch := false }

/-- Steps 2 to 4 of 13 R318: the segments are converted, and the member arrives with its hash. -/
def State.signArrive (s : State) (g : Signing) (joined : Option Compact) (pages snapPages : List Nat) :
    State :=
  let mask := rangeMask g.entry.first g.entry.segs
  let old : BitVec 8 := slice s.tile.cr.segmode 0 8
  let s := s.convert s.cur (old ||| mask)
  let (s, c) := match joined with
    | some c => (s, c)
    | none =>
      let c := s.newCompact g
      ({ s with nextCompact := s.nextCompact + 1, compacts := c :: s.compacts }, c)
  let m : CMember := {
    index := g.index, tile := s.cur, twin := g.twin, first := g.entry.first, segs := g.entry.segs
    back := g.entry.back, pages := pages, snapPages := snapPages, token := 0 }
  let hash := Config.signHash (g.desc.words ++ g.table ++ g.image)
  let c := { c with
    members := c.members ++ [m]
    signing := c.signing ++ [⟨s.cur, g.index, hash⟩]
    arrived := insertNat c.arrived s.cur
    image := if g.index = 0 then g.image else c.image }
  let s := s.setCompact c
  let s := s.modMember s.cur fun _ =>
    { Member.free with phase := .signing, compact := c.num, index := g.index, twin := g.twin }
  ((s.noteArrival .csign c.bdom c.gen).whenAll c.num .compactCommit).stay 0

/-- Signing fails: every member that has arrived takes CSIGNFAIL (13 R318). -/
def State.failSigning (s : State) (c : Compact) (code index : Nat) (m : Option Word) : State :=
  let s := c.members.foldl (fun s x =>
    s.freeMember c.num x.tile fun y =>
      { Member.free with verdict := some ⟨code, index, m⟩, barrier := y.barrier }) s
  { s with compacts := s.compacts.filter (·.num != c.num) }

/-- TMO has passed since the first arrival (13 R316). -/
def Compact.overdue (c : Compact) (now : Nat) : Bool := decide (c.since + (c.tmo + 1) * 2 ^ 16 ≤ now)

/-- A signing ends for a member that has not arrived: the lowest one is named (13 R318, R320). -/
def State.signLate (s : State) (c : Compact) : State :=
  let missing := (List.range c.nmem).find? fun i => !(c.signing.any fun x => x.index == i)
  s.failSigning c 1 (missing.getD 0) none

/-- A member comes after TMO has passed: the signing that it would have joined has failed. -/
def State.dropOverdue (s : State) (joined : Option Compact) : State :=
  match joined with
  | some c => if c.overdue s.cc then s.signLate c else s
  | none => s

/-- A fresh CSIGN (13 R318, steps 1 to 4). -/
def State.sign (s : State) (va : Word) : State :=
  if va.toNat % 128 ≠ 0 then s.raise ⟨.misalign, va, some (mfinfoOf 0 0 0 0)⟩
  else if !s.released then s.stay 0
  else match s.readSigning va with
    | (s, .error f) => s.signStop f
    | (s, .ok g) =>
      let dom := g.desc.bdom
      let find (s : State) : Option Compact :=
        s.joins (dieOf s.cur) dom s.tile.ctx (s.device * 2048 + s.cur)
      let s := s.dropOverdue (find s)
      let joined := find s
      let mask := rangeMask g.entry.first g.entry.segs
      if s.domainRefused dom joined then s.signFail 6 g.index none
      else if s.tile.member.phase ≠ .free ∨ s.pinnedSegs s.cur &&& mask ≠ 0 then
        s.signFail 7 g.index none
      else
        let segs := (List.range 8).filter (bitAt ((slice s.tile.cr.segmode 0 8 : BitVec 8) ||| mask))
        match s.signRanges g.entry (if g.desc.snap then g.entry.segs + 4 + segs.length else 0) with
        | .ok (pages, snapPages) => s.signArrive g joined pages snapPages
        | .error t => s.signStop (.ofTrap g.index t)

/-- CSIGN (13 R318, R333). -/
def execCsign (st : StallCode) (a : XReg) (s : State) : Host.Outcome State Fault Refusal :=
  let q : Issue := { word := encode (.csign st a), stall := st, serial := true, reads := [.x a],
                     illegal := (·.inTask) }
  .next (s.issue q fun s =>
    let m := s.tile.member
    match m.verdict with
    | some v => s.takeVerdict v
    | none =>
      match s.compactOf s.cur with
      | some c =>
        if s.tile.stands .csign c.bdom && m.phase == .signing then s.stay 0
        else if s.tile.stands .csign c.bdom && s.tile.arrivalGen != c.gen then s.endArrival.finish q
        else s.sign (s.readX a)
      | none => s.sign (s.readX a))

/-! ### The schedule (13 R321–R324, R340) -/

/-- HARTID of a member, one of a peer domain under its number there. -/
def Compact.hart (c : Compact) (i : Nat) : Nat :=
  let h := c.harts.getD i (0, 0)
  domainHart h.2 h.1

/-- The distance between clusters (13 R321), by HARTID. -/
def hatchDist (a b : Nat) : Nat :=
  let c (h : Nat) : Nat := h / 32 % 16
  let d (x y : Nat) : Nat := if x ≤ y then y - x else x - y
  4 + d (c a % 4) (c b % 4) + d (c a / 4) (c b / 4)

/-- Two harts lie on one die of one device of one domain (13 R322). -/
def onDie (a b : Nat) : Bool := a / 512 == b / 512

/-- The key slot of an entry at a receiver (13 R322). -/
def Compact.keySlot (c : Compact) (e : SlotEntry) (dst : Nat) : Nat :=
  let src := c.hart e.src
  if onDie src dst then e.slot + hatchDist src dst else e.slot

/-- The hatch port of a member (13 R321): its cluster, and twice its row plus H. -/
def hatchPort (hart h : Nat) : Nat × Nat := (hart / 32, 2 * (hart / 8 % 4) + h)

/-- An entry of a schedule. -/
def slotEntry (w : Word) : SlotEntry :=
  ⟨(slice w 0 10).toNat, (slice w 10 1).toNat, (slice w 11 1).toNat, (slice w 12 20).toNat,
    (slice w 32 20).toNat⟩

/-- The receivers of an entry: with TWIN both tiles of the pair (13 R340). -/
def Compact.receivers (c : Compact) (e : SlotEntry) : List Nat :=
  c.hart e.dst :: (if c.twin then [c.twins.getD e.dst 0] else [])

/-- The tiles that drive an entry's beat. -/
def Compact.senders (c : Compact) (e : SlotEntry) : List Nat :=
  c.hart e.src :: (if c.twin then [c.twins.getD e.src 0] else [])

/-- Every pair of elements of a list agrees. -/
def pairwise {α : Type} (ok : α → α → Bool) : List α → Bool
  | [] => true
  | x :: rest => rest.all (ok x) && pairwise ok rest

/-- The checks of 13 R324: the length of a phase and the entries, or a refusal. -/
def Compact.readSchedule (c : Compact) : Option (Nat × List SlotEntry) :=
  match c.image with
  | [] => some (1, [])
  | h :: ws =>
    let len := (slice h 0 11).toNat
    let es := ws.map slotEntry
    let ports := es.flatMap fun e => (c.senders e).map fun t => (hatchPort t e.sh, e.slot, t, e.sh)
    let ins := es.flatMap fun e => (c.receivers e).filterMap fun d =>
      if onDie (c.hart e.src) d then
        some (hatchPort d e.dh, c.keySlot e d, c.hart e.src, e.slot, e.sh) else none
    let keys := es.flatMap fun e => (c.receivers e).map fun d => (d, e.dh, c.keySlot e d)
    let ok := decide (slice h 11 5 = 0 ∧ slice h 32 32 = 0 ∧ 1 ≤ len ∧ len ≤ 1024) &&
      ws.all (fun w => slice w 52 12 == 0#12) &&
      es.all (fun e => decide (e.src < c.nmem ∧ e.dst < c.nmem) &&
        (c.receivers e).all fun d => !(onDie (c.hart e.src) d) || decide (c.keySlot e d < len)) &&
      pairwise (fun (a b : (Nat × Nat) × Nat × Nat × Nat) =>
        !(a.1 == b.1 && a.2.1 == b.2.1) || a.2.2 == b.2.2) ports &&
      pairwise (fun (a b : (Nat × Nat) × Nat × Nat × Nat × Nat) =>
        !(a.1 == b.1 && a.2.1 == b.2.1) || a.2.2 == b.2.2) ins &&
      pairwise (fun (a b : Nat × Nat × Nat) => a != b) keys
    if ok then some (len, es) else none

/-! ### Commitment (13 R318, step 5) -/

/-- The bytes of [lo, hi) moved to `dst`. -/
def Memory.moved (m : Memory) (lo hi dst : Nat) : Memory :=
  (m.filter fun c => decide (lo ≤ c.1) && decide (c.1 < hi)).map fun c => (c.1 - lo + dst, c.2)

/-- The bytes from `lo` to `hi` replaced by others. -/
def Memory.splice (m : Memory) (lo hi : Nat) (new : Memory) : Memory :=
  (m.filter fun c => decide (c.1 < lo)) ++ new ++ m.filter fun c => decide (hi ≤ c.1)

/-- Every copy of a page's lines (State.pageOf) leaves the tile caches; owned ones are recalled
(13 R318). -/
def State.dropCopies (s : State) (page : Nat) : State :=
  s.tiles.foldl (fun s p => (p.2.cache.filter fun l => l.addr / 0x10000 == page).foldl
    (fun s l => if l.owned then s.evictLine p.1 l.addr else s.modTile p.1 (·.dropLine l.addr)) s) s

/-- The sector number of byte `off` of tile `n`'s scratchpad. -/
def scratchSector (n off : Nat) : Nat := sectorOf (0x10000000000 + n * 0x400000 + off)

/-- A segment of tile `n` filled from its backing page, which ends what was lost in it. -/
def State.fillSegment (s : State) (n seg page : Nat) : State :=
  let lo := seg * 0x10000
  let here (p : Nat) : Bool :=
    decide (scratchSector n lo ≤ p) && decide (p < scratchSector n (lo + 0x10000))
  let s := { s with
    poisoned := s.poisoned.filter fun p => !here p.1
    injected := s.injected.filter fun p => !here p.1 }
  if s.isLocal page then
    let la := localAddr page
    s.modTile n fun t => { t with
      sram := t.sram.splice lo (lo + 0x10000) (s.mem.moved la (la + 0x10000) lo) }
  else
    (List.range 8192).foldl (fun s k => s.modTile n fun t => writeLE
      (fun (t : Tile) a b => { t with sram := t.sram.write a b }) t (lo + 8 * k)
      (farBytes s.fresh (page + 8 * k) 8) 8) s

/-- Every word of a range becomes FULL, which serves what waits there (06 R139). -/
def State.fillWords (s : State) (n first segs : Nat) : State :=
  ((s.getTile n).empty.filter fun o =>
    decide (first ≤ o / 0x10000) && decide (o / 0x10000 < first + segs)).foldl
    (fun s o => (s.modTile n (·.setFull o)).feChanged n o true) s

/-- A sector of the backing memory that is lost: the page's address for the report. -/
def State.backLost (s : State) (m : CMember) : Bool :=
  m.pages.any fun p => s.isLocal p && s.poisoned.any fun x =>
    x.1 / 1024 == localAddr p / 0x10000

/-! ### Snapshots (13 R337–R339) -/

/-- The execute hart stands at a barrier instruction that waits. -/
def State.waitsAt (s : State) (n : Nat) : Bool :=
  let f (s : State) : Bool :=
    match s.fetchWord s.tile.eh.pc with
    | .error _ => false
    | .ok w => match decodeWord w with
      | .ok i => i == .sxend || (match i with
          | .csign _ _ => true
          | _ => false)
      | .error _ => false
  bitAt (s.getTile n).cr.barstat 63 && f (s.focus n)

/-- The state of a hart that a snapshot saves: it resumes after the barrier instruction it waits
at (13 R337). -/
def State.snapTile (s : State) (k : Nat) : Tile :=
  let t := s.getTile k
  let t := if s.waitsAt k then
      { t.noArrival with eh := { t.eh with pc := t.eh.pc + 4, wait := 0 } }
    else t
  { t.kept with place := none }

/-- What a snapshot of a member's range has of its full/empty bits: those of its tile. -/
def CMember.inRange (m : CMember) (off : Nat) : Bool :=
  decide (m.first ≤ off / 0x10000) && decide (off / 0x10000 < m.first + m.segs)

/-- A sector of a member's range copied to its snapshot area. -/
def State.saveSector (s : State) (ctx : Nat) (m : CMember) (sec : Nat) : State :=
  let off := sec * 64
  let k := off / 0x10000
  if k < m.first ∨ m.first + m.segs ≤ k then s
  else
    let pa := m.snapPages.getD (k - m.first) 0 + off % 0x10000
    if s.isLocal pa then
      let t := s.getTile m.tile
      s.writeWords ctx (localAddr pa) 8 fun i => storeWord t.sram (off / 8 + i)
    else s

/-- The sectors of a range. -/
def CMember.sectors (m : CMember) : List Nat :=
  (List.range (m.segs * 1024)).map (· + m.first * 1024)

/-- The snapshot of one member, whose hart may have been saved: `secs` are the sectors to copy. A
twin's context is kept beside the area that its primary writes. -/
def State.snapMember (s : State) (c : Compact) (m : CMember) (secs : List Nat) : State :=
  let k := s.hartOfMember c.num m.tile
  let range := (s.getTile m.tile).empty.filter m.inRange
  let t := s.snapTile k
  let t := { t with empty := range.foldl insertNat (t.empty.filter fun o => !m.inRange o) }
  let token := if m.token = 0 then s.freshStore else m.token
  let hdr := t.areaHeader s.gtc (match (s.getTile k).place with
    | some p => p.launch
    | none => s.device * 2048 + m.tile) t.eh.pc t.level
  let s := if m.twin then s
    else (secs.foldl (fun s k => s.saveSector c.ctx m k) s).writeArea c.ctx t token
      (m.snapPages.drop m.segs) hdr []
  let s := s.setTile token t
  let s := s.modMember m.tile fun x => { x with written := [], snapRequested := false }
  s.modCompact c.num fun c => { c with
    members := c.members.map fun (x : CMember) =>
      if x.tile = m.tile then { x with token := token } else x }

/-- A snapshot of a compact (13 R337): `all` copies every sector, the first time. -/
def State.snapshot (s : State) (c : Compact) (all : Bool) (count : Nat) : State :=
  let s := c.members.foldl (fun s m =>
    s.snapMember c m (if all then m.sectors else (s.getTile m.tile).member.written)) s
  s.modCompact c.num fun c => { c with snapAt := count, rollbacksHere := 0 }

/-- The compact is committed (13 R318, step 5). -/
def State.commitCompact (s : State) (c : Compact) (len : Nat) (es : List SlotEntry) : State :=
  let s := c.members.foldl (fun s m => m.pages.foldl (fun s p => s.dropCopies (s.pageOf p)) s) s
  let s := c.members.foldl (fun s m =>
    let pin : Pin := ⟨c.num, m.tile, m.first, m.pages.map s.pageOf, m.back, c.ctx⟩
    let s := if c.load then m.pages.zipIdx.foldl (fun s p => s.fillSegment m.tile (m.first + p.2) p.1) s
      else s
    let s := { s with pins := if m.twin then s.pins ++ [pin] else pin :: s.pins }
    (s.fillWords m.tile m.first m.segs).modMember m.tile fun x => { x with
      phase := .compute, count := 0, miss := 0, hatch := [], written := [] }) s
  let c := { c with signed := true, signing := [], arrived := [], gen := c.gen + 1
                    len := len, sched := es }
  let s := s.setCompact c
  if c.snap then s.snapshot c true 0 else s

/-- COMPACT_COMMIT: compact `n₁`, whose members have all arrived; `flag` says so of those on other
devices, and `n₂` is a code that those report. Backing lines that another compact has pinned are
waited for (13 R344). -/
def execCompactCommit (s : State) : Host.Outcome State Fault Refusal :=
  let a := s.arg
  .next (match s.compacts.find? (fun c => c.num == a.n₁ && !c.signed) with
    | none => s
    | some c =>
      if !s.allArrived c a.flag then s
      else if c.signing.any fun x => c.signing.any fun y => x.hash != y.hash then
        s.failSigning c 4 0 none
      else if 4096 < s.pins.length + c.members.length then s.failSigning c 6 0 none
      else if a.n₂ ≠ 0 then s.failSigning c a.n₂ a.n₃ none
      else match c.readSchedule with
        | none => s.failSigning c 5 0 none
        | some (len, es) =>
          if c.members.any fun m => m.pages.any fun p => (s.pinAt (s.keyOf p)).isSome then s
          else
            let s := if c.load then c.members.foldl (fun s m => m.pages.foldl (fun s p =>
                (s.injected.filter fun x => s.isLocal p && x.1 / 1024 == localAddr p / 0x10000).foldl
                  (fun s x => s.detect x.1) s) s) s else s
            match if c.load then c.members.find? s.backLost else none with
            | some m => s.failSigning c 8 m.index (some (mfinfoOf 0 0 0 reasonUE))
            | none => s.commitCompact c len es)

/-- CSIGN_TIMEOUT: TMO has passed since the first arrival (13 R316, R318): the lowest member that is
missing is named. -/
def execCsignTimeout (s : State) : Host.Outcome State Fault Refusal :=
  .next (match s.compacts.find? (fun c => c.num == s.arg.n₁ && !c.signed) with
    | none => s
    | some c =>
      if !c.overdue s.cc ∨ (s.allArrived c false ∧ !s.arg.flag) then s else s.signLate c)

/-! ### Supersteps (13 R325–R328) -/

/-- Accesses of the member's units to its own range, in any form that 19 R449 names, that have not
been performed. -/
def State.rangeBusy (s : State) : Bool :=
  let mine (accs : List Acc) : Bool := accs.any fun a => s.isLocal a.pa && !a.done &&
    (match regionOf (s.redirect s.cur (localAddr a.pa)) with
     | .window n off => n == s.cur && s.ownRange off
     | .hbm | .launch _ | .regs _ | .appSram | .appRegs _ | .hostMem | .unmapped => false)
  s.tile.reqs.any (fun q => q.engine.isNone && mine q.accs) || s.tile.remote.any fun r => mine r.accs

/-- SLOTVIOL (13 R329). -/
def State.slotViol (s : State) (w : Word32) (code : Nat) : State :=
  s.raise ⟨.slotviol, slotviolTval code w, none⟩

/-- SSTEP (13 R325). -/
def execSstep (s : State) : Host.Outcome State Fault Refusal :=
  let q : Issue := { word := s.withStall (encode .sstep), serial := true, illegal := (·.inTask) }
  .next (s.issue q fun s =>
    match s.compactOf s.cur with
    | none => s.slotViol q.word 3
    | some c =>
      if s.tile.member.phase ≠ .compute then s.slotViol q.word 3
      else if s.rangeBusy || !s.tile.tasks.ready.isEmpty || !s.tile.tasks.parked.isEmpty then s.stay 0
      else
        let s := (s.arriveCompact c).modMember s.cur fun m => { m with phase := .transfer, hatch := [] }
        let s := if s.choice.defer then s
          else match s.compacts.find? (·.num == c.num) with
            | some c => if s.allArrived c false then
                c.dies.foldl (fun s d =>
                  s.post .transferStart { EventArg.none with n₁ := c.num, n₂ := d }) s
              else s
            | none => s
        s.finish q)

/-- TRANSFER_START: the barrier of SSTEP has released and slot 0 starts on die `n₂` (13 R325,
R330); `flag` says that the members on other devices have arrived. -/
def execTransferStart (s : State) : Host.Outcome State Fault Refusal :=
  let a := s.arg
  .next (match s.compacts.find? (fun c => c.num == a.n₁ && c.signed) with
    | none => s
    | some c =>
      let first := c.released.isEmpty && s.allArrived c a.flag &&
        c.members.all fun m => (s.getTile m.tile).member.phase == .transfer
      let c := if first then { c with released := c.dies, arrived := [], gen := c.gen + 1 } else c
      if c.released.contains a.n₂ then
        s.setCompact { c with
          released := removeNat c.released a.n₂
          slots := putKey c.slots a.n₂ 0 }
      else s)

/-- The slot that passes next on a die; none where the phase has not started. -/
def Compact.nextSlot (c : Compact) (die : Nat) : Option Nat :=
  (c.slots.find? fun p => p.1 == die).map (·.2)

/-- SXMIT and SSEL (13 R326, R329). -/
def hatchInstr (i : Instr) (st : StallCode) (a : XReg) (h : BitVec 1) (n : BitVec 10) (send : Bool)
    (s : State) : State :=
  let q : Issue := { word := encode i, stall := st, reads := [.x a] }
  s.issue q fun s =>
    let off := s.readX a
    let me := s.device * 2048 + s.cur
    if off.toNat % 64 ≠ 0 then s.raise ⟨.misalign, off, none⟩
    else match s.compactOf s.cur with
      | none => s.slotViol q.word 3
      | some c =>
        let m := s.tile.member
        let granted := c.sched.any fun e =>
          if send then e.src == m.index && e.slot == n.toNat && e.sh == h.toNat
          else e.dst == m.index && c.keySlot e me == n.toNat && e.dh == h.toNat
        if m.phase ≠ .transfer then s.slotViol q.word 3
        else if !granted then s.slotViol q.word 1
        else if (match c.nextSlot (dieOf s.cur) with
            | some k => decide (n.toNat < k)
            | none => false) then s.slotViol q.word 2
        else if 0x80000 ≤ off.toNat ∨ !s.ownRange off.toNat then s.slotViol q.word 4
        else if 256 ≤ (m.hatch.filter fun x => !x.done).length then s.stay 0
        else (s.modMember s.cur fun m => { m with
          hatch := m.hatch ++ [⟨send, h.toNat, n.toNat, off.toNat, false⟩] }).finish q

/-- SXMIT (13 R326). -/
def execSxmit (st : StallCode) (a : XReg) (h : BitVec 1) (n : BitVec 10) (s : State) :
    Host.Outcome State Fault Refusal := .next (hatchInstr (.sxmit st a h n) st a h n true s)

/-- SSEL (13 R326). -/
def execSsel (st : StallCode) (a : XReg) (h : BitVec 1) (n : BitVec 10) (s : State) :
    Host.Outcome State Fault Refusal := .next (hatchInstr (.ssel st a h n) st a h n false s)

/-- A hatch entry that waits for its slot. -/
def Member.pendingHatch (m : Member) (send : Bool) (port slot : Nat) : Option HatchEntry :=
  m.hatch.find? fun x => x.send == send && x.port == port && x.slot == slot && !x.done

/-- A hatch entry has been performed. -/
def Member.hatchDone (m : Member) (x : HatchEntry) : Member :=
  { m with hatch := m.hatch.map fun (y : HatchEntry) => if y = x then { y with done := true } else y }

/-- 64 bytes of a tile's scratchpad, and their writing. -/
def Tile.block64 (t : Tile) (off : Nat) : Vec := BitVec.ofNat 512 (readLE t.sram.read off 64)

def Tile.putBlock64 (t : Tile) (off : Nat) (v : Vec) : Tile :=
  writeLE (fun (t : Tile) a b => t.windowStore a b) t off v.toNat 64

/-- A beat written to a tile's scratchpad: a write of the whole sector (13 R326, 16 R426). -/
def State.landBeat (s : State) (n off : Nat) (v : Vec) : State :=
  (s.modTile n (·.putBlock64 off v)).cleanse (scratchSector n off)

/-- A beat that an SXMIT would read is lost: it is not driven, and its hart takes DATAERR
(16 R426, log 24). -/
def State.beatLost (s : State) (n : Nat) (x : HatchEntry) : State :=
  (s.modMember n fun m => { m with hatch := m.hatch.erase x }).atTile n
    (·.deliverError ⟨Cause.dataerr.code, BitVec.ofNat 64 x.offset, some (mfinfoOf 0 0 0 reasonUE)⟩)

/-- The beats that a member's drive of a port in a slot sends. -/
def Compact.beatsOf (c : Compact) (x : BeatCopy) (data : Vec) : List Beat :=
  (c.sched.filter fun e => e.src == x.index && e.slot == x.slot && e.sh == x.port).flatMap fun e =>
    (c.receivers e).map fun d => ⟨c.hart e.src, x.port, x.slot, d, e.dh, data, false⟩

/-- What the routers hash of a copy of a beat. -/
def BeatCopy.digest (x : BeatCopy) : List Nat := [x.slot, x.port, x.data.toNat]

/-- A tile has driven a beat: the compact, and the beats that go on. In a pair those of the primary
do, once both tiles have driven copies that match (13 R340); other copies stand, and are a mismatch
at the barrier. A tile whose other one is on another device goes on alone (log 38). -/
def Compact.drive (c : Compact) (x : BeatCopy) : Compact × List Beat :=
  let send (c : Compact) (data : Vec) : Compact × List Beat :=
    let l := c.beatsOf x data
    ({ c with beats := c.beats ++ l }, l)
  if !(c.members.any fun m => m.index == x.index && m.twin != x.twin) then
    (if x.twin then (c, []) else send c x.data)
  else
    match c.copies.find? fun y =>
        y.index == x.index && y.twin != x.twin && y.slot == x.slot && y.port == x.port with
    | some y =>
      if sameCopy x.digest y.digest then
        send { c with copies := c.copies.erase y } (if x.twin then y.data else x.data)
      else ({ c with copies := c.copies ++ [x] }, [])
    | none => ({ c with copies := c.copies ++ [x] }, [])

/-- Packets on BSP carry remote beats, and the packets that stand for them, to other devices of the
domain (13 R330, 14 R361). -/
def State.sendBeats (s : State) (n : Nat) (l : List Beat) : State :=
  s.sendOrdered .bsp (s.getTile n).tenant (l.filterMap fun b =>
    if s.peers.contains (b.dst / 2048) then some (b.dst / 2048) else none)

/-- The reads of slot `k` on a die: each SXMIT drives its beat (13 R326, R327, R340). -/
def State.driveSlot (s : State) (num die k : Nat) : State :=
  match s.compacts.find? (·.num == num) with
  | none => s
  | some c =>
    (c.members.filter fun m => dieOf m.tile == die).foldl (fun s m =>
      [0, 1].foldl (fun s h =>
        let t := s.getTile m.tile
        match t.member.pendingHatch true h k, s.compacts.find? (·.num == num) with
        | some x, some c =>
          let s := s.detect (scratchSector m.tile x.offset)
          if s.lost (scratchSector m.tile x.offset) then s.beatLost m.tile x else
          let s := s.modMember m.tile (·.hatchDone x)
          let (c, l) := c.drive ⟨m.index, m.twin, k, h, t.block64 x.offset⟩
          (s.setCompact c).sendBeats m.tile l
        | none, _ | some _, none => s) s) s

/-- The on-die arrivals of slot `k` on a die: each SSEL writes its beat; what is not driven or not
selected counts (13 R326, R327). -/
def State.landSlot (s : State) (num die k : Nat) : State :=
  match s.compacts.find? (·.num == num) with
  | none => s
  | some c =>
    (c.members.filter fun m => dieOf m.tile == die).foldl (fun s m =>
      let me := s.device * 2048 + m.tile
      (c.sched.filter fun e => e.dst == m.index && onDie (c.hart e.src) me &&
        c.keySlot e me == k).foldl (fun s e =>
          let beat := c.beats.find? fun b =>
            b.src == c.hart e.src && b.slot == e.slot && b.sh == e.sh && b.dst == me && b.dh == e.dh
          let sel := (s.getTile m.tile).member.pendingHatch false e.dh k
          let s := match sel with
            | some x => s.modMember m.tile (·.hatchDone x)
            | none => s
          let s := match beat with
            | some b => s.modCompact num fun c => { c with beats := c.beats.erase b }
            | none => s
          match beat, sel with
          | some b, some x => s.landBeat m.tile x.offset b.data
          | none, _ | some _, none => s.modMember m.tile fun y => { y with miss := y.miss + 1 }) s) s

/-- How many slots have passed on a die in the transfer phase. -/
def Compact.passed (c : Compact) (die : Nat) : Nat :=
  match c.nextSlot die with
  | some k => k
  | none => if c.released.contains die then 0 else c.len

/-- With TWIN, slot `k` of a die waits until the dies of its pairs have come within four slots of
it, the least distance of a beat: so both copies of a beat have been driven before it arrives. No
rule says how the routers wait for a twin's copy (DESIGN CHOICE, log 38). -/
def Compact.pairsReady (c : Compact) (die k : Nat) : Bool :=
  c.members.all fun m => dieOf m.tile != die || c.members.all fun x =>
    x.index != m.index || decide (k ≤ c.passed (dieOf x.tile) + 3)

/-- HATCH_SLOT: the next slot passes on die `n₂` for compact `n₁`: reads first, then arrivals
(13 R327). -/
def execHatchSlot (s : State) : Host.Outcome State Fault Refusal :=
  let a := s.arg
  .next (match s.compacts.find? (·.num == a.n₁) with
    | none => s
    | some c =>
      match c.nextSlot a.n₂ with
      | none => s
      | some k =>
        if c.len ≤ k || !c.pairsReady a.n₂ k then s
        else
          let s := (s.driveSlot a.n₁ a.n₂ k).landSlot a.n₁ a.n₂ k
          let s := s.modCompact a.n₁ fun c => { c with slots := putKey c.slots a.n₂ (k + 1) }
          if c.len ≤ k + 1 then s.post .transferEnd { EventArg.none with n₁ := a.n₁, n₂ := a.n₂ }
          else s)

/-- TRANSFER_END: slot LEN − 1 has passed on die `n₂`: its members enter BARRIER, and idle packets
stand for remote beats that were not driven (13 R327). -/
def execTransferEnd (s : State) : Host.Outcome State Fault Refusal :=
  let a := s.arg
  .next (match s.compacts.find? (·.num == a.n₁) with
    | none => s
    | some c =>
      if c.nextSlot a.n₂ ≠ some c.len || !c.pairsReady a.n₂ (c.len + 3) then s
      else
        let here := c.members.filter fun m => dieOf m.tile == a.n₂
        let idle := (here.filter (!·.twin)).flatMap fun m =>
          let driven (e : SlotEntry) : Bool :=
            ((s.getTile m.tile).member.hatch.any fun x =>
              x.send && x.port == e.sh && x.slot == e.slot && x.done) &&
            !(c.copies.any fun x => x.index == m.index && x.port == e.sh && x.slot == e.slot)
          (c.sched.filter fun e => e.src == m.index && !driven e).flatMap fun e =>
            ((c.receivers e).filter fun d => !(onDie (c.hart e.src) d)).map fun d =>
              (⟨c.hart e.src, e.sh, e.slot, d, e.dh, 0, true⟩ : Beat)
        let s := here.foldl (fun s m => s.modMember m.tile fun x =>
          if x.phase = .transfer then { x with phase := .barrier } else x) s
        let s := s.modCompact a.n₁ fun c => { c with
          slots := c.slots.filter fun (p : Nat × Nat) => p.1 != a.n₂
          beats := c.beats ++ idle }
        match here with
        | m :: _ => s.sendBeats m.tile idle
        | [] => s)

/-- A remote beat, or the packet that stands for it, reaches a member of this device: it is written
where it was selected, and anything else counts once (13 R326–R328). -/
def State.landRemote (s : State) (c : Compact) (b : Beat) : State :=
  let n := b.dst % 2048
  let s := match (s.getTile n).member.pendingHatch false b.dh b.slot with
    | some x =>
      let s := s.modMember n (·.hatchDone x)
      if b.idle then s.modMember n fun y => { y with miss := y.miss + 1 }
      else s.landBeat n x.offset b.data
    | none => s.modMember n fun y => { y with miss := y.miss + 1 }
  s.modCompact c.num fun c => { c with
    beats := c.beats.erase b
    remoteIn := (b.dst, b.dh, b.slot) :: c.remoteIn }

/-- A receiver's die has passed the key slot of a remote beat. -/
def State.passedSlot (s : State) (c : Compact) (n slot : Nat) : Bool :=
  match (s.getTile n).member.phase with
  | .barrier => true
  | .transfer => (match c.nextSlot (dieOf n) with
    | some k => decide (slot < k)
    | none => false)
  | .free | .signing | .compute | .dissolving => false

/-- REMOTE_BEAT_ARRIVAL: beat `n₂` of compact `n₁` reaches its receiver, or is acknowledged by
another device (13 R328, R330). With `flag` a beat comes from another device: receiver `tile`, DH
`n₂`, SLOT `n₃`, idle where `w₁` is not 0. -/
def execRemoteBeatArrival (s : State) : Host.Outcome State Fault Refusal :=
  let a := s.arg
  .next (match s.compacts.find? (fun c => c.num == a.n₁ && c.signed) with
    | none => s
    | some c =>
      if a.flag then
        let me := s.device * 2048 + a.tile
        let known := c.sched.any fun e => (c.receivers e).contains me && e.dh == a.n₂ &&
          e.slot == a.n₃ && c.hart e.src / 2048 != s.device
        if known && !(c.remoteIn.contains (me, a.n₂, a.n₃)) && s.passedSlot c a.tile a.n₃ then
          s.landRemote c ⟨0, 0, a.n₃, me, a.n₂, a.vec, a.w₁ != 0⟩
        else s
      else match c.beats[a.n₂]? with
        | none => s
        | some b =>
          if onDie b.src b.dst then s
          else if b.dst / 2048 ≠ s.device then s.setCompact { c with beats := c.beats.erase b }
          else if s.passedSlot c (b.dst % 2048) b.slot then s.landRemote c b
          else s)

/-- Every beat that concerns the tile in focus has been written or acknowledged (13 R328). -/
def State.beatsDone (s : State) (c : Compact) : Bool :=
  let me := s.device * 2048 + s.cur
  let m := s.tile.member
  !(c.beats.any fun b => b.src == me && !m.twin) &&
    c.sched.all fun e => e.dst != m.index || onDie (c.hart e.src) me ||
      c.remoteIn.contains (me, e.dh, e.slot)

/-- SXEND (13 R328, R333). -/
def execSxend (s : State) : Host.Outcome State Fault Refusal :=
  let q : Issue := { word := s.withStall (encode .sxend), serial := true, illegal := (·.inTask) }
  .next (s.issue q fun s =>
    let m := s.tile.member
    match m.verdict with
    | some v => s.takeVerdict v
    | none =>
      match s.compactOf s.cur with
      | none => s.slotViol q.word 3
      | some c =>
        if s.tile.stands .sxend c.bdom then
          (if s.tile.arrivalGen = c.gen then s.stay 0 else s.endArrival.finish q)
        else if m.phase ≠ .transfer ∧ m.phase ≠ .barrier then s.slotViol q.word 3
        else if m.phase = .transfer ∨ !s.beatsDone c ∨ !s.released then s.stay 0
        else
          (((s.arriveCompact c).noteArrival .sxend c.bdom c.gen).whenAll c.num .superstepBarrier).stay 0)

/-! ### Held loads and parked writes (13 R335, R343, 08 R198) -/

/-- A request of a tile takes up again what it has waited for. -/
def State.serveAgain (s : State) (n id : Nat) : State :=
  s.atTile n fun s =>
    let s := s.serve id
    if s.choice.defer then s else s.respond id

/-- The pieces of a held load that lie in the ranges of a compact are read at addresses `f`. -/
def State.serveHeldReq (s : State) (n : Nat) (q : Req) (num : Nat) (f : Nat → Nat) : State :=
  let step (p : State × Req) (ai : Acc × Nat) : State × Req :=
    let (s, q) := p
    let (a, i) := ai
    if a.done || !s.isLocal a.pa || !s.pinnedBy num (localAddr a.pa) then p
    else
      let la := f (localAddr a.pa)
      let s := s.detect (sectorOf la)
      if s.lost (sectorOf la) then
        (s.reportLost q.ctx la,
          { q with
            accs := setNth q.accs i { a with done := true }
            error := q.error.or (some q.dataError) })
      else
        (s, { q with accs := setNth q.accs i { a with data := s.readKey la a.size, done := true } })
  s.atTile n fun s =>
    let (s, q) := q.accs.zipIdx.foldl step (s, q)
    let rest := q.accs.any fun a => !a.done && s.isLocal a.pa && s.pinnedByOther (localAddr a.pa)
    let s := s.setReq { q with parked := if rest then some .held else none, answered := q.performed }
    if rest then s
    else if q.performed then (if s.choice.defer then s else s.respond q.id)
    else
      let s := s.serve q.id
      if s.choice.defer then s else s.respond q.id

/-- The same for an RLD. -/
def State.serveHeldRemote (s : State) (n : Nat) (r : RemoteReq) (num : Nat) (f : Nat → Nat) : State :=
  if r.accs.any fun a => s.isLocal a.pa && !s.pinnedBy num (localAddr a.pa) then s
  else
    s.atTile n fun s =>
      let la (a : Acc) : Nat := f (localAddr a.pa)
      let s := r.accs.foldl (fun s a => s.detect (sectorOf (la a))) s
      if r.accs.any fun a => s.lost (sectorOf (la a)) then
        s.replyRemote r (some (s.asReq r).dataError)
      else
        s.replyRemote { r with
          accs := r.accs.map fun a => { a with data := s.readKey (la a) a.size, done := true } } none

/-- The held words that the instruction at issue of a tile reads are served (13 R335). -/
def State.serveHeldWords (s : State) (n num : Nat) (f : Nat → Nat) : State :=
  let t := s.getTile n
  match t.eh.begun with
  | some (.reads l) =>
    let step (p : State × List HeldWord) (h : HeldWord) : State × List HeldWord :=
      let (s, l) := p
      if h.value = .waits ∧ s.pinnedBy num (localAddr h.pa) then
        match s.readWord t.ctx (f (localAddr h.pa)) with
        | (s, none) => (s, l ++ [{ h with value := .lost }])
        | (s, some v) => (s, l ++ [{ h with value := .word (BitVec.ofNat 64 v) }])
      else (s, l ++ [h])
    let (s, l) := l.foldl step (s, [])
    s.modTile n fun t => { t with eh := { t.eh with begun := some (.reads l) } }
  | some (.save _) | some .load | some .wfi | some (.fence _) | none => s

/-- The held words that the dispatcher reads for launches are served, and their parsing goes on
(13 R335, 15 R389). -/
def State.serveHeldDisp (s : State) (num : Nat) (f : Nat → Nat) (keep : Nat → Bool) : State :=
  let due (r : DispRead) : Bool :=
    r.value == .waits && keep r.ctx && s.pinnedBy num (localAddr r.pa)
  let step (p : State × List DispRead) (r : DispRead) : State × List DispRead :=
    let (s, l) := p
    if !due r then (s, l ++ [r])
    else match s.readWord r.ctx (f (localAddr r.pa)) with
      | (s, none) => (s, l ++ [{ r with value := .lost }])
      | (s, some v) => (s, l ++ [{ r with value := .word (BitVec.ofNat 64 v) }])
  let lids := ((s.dispReads.filter due).map (·.lid)).eraseDups
  let (s, l) := s.dispReads.foldl step (s, [])
  lids.foldl (fun s lid => s.post .launchTrigger { EventArg.none with n₁ := 2, n₂ := lid })
    { s with dispReads := l }

/-- The held lines of an image that a QSTART of a tile copies are served (13 R335). -/
def State.serveHeldCopy (s : State) (n num : Nat) (f : Nat → Nat) (u : UnitId) : State :=
  match ((s.getTile n).seq u).copying with
  | none => s
  | some c =>
    let step (p : State × ImageCopy) (pa : Nat) : State × ImageCopy :=
      let (s, c) := p
      if !s.isLocal pa || !s.pinnedBy num (localAddr pa) || !s.pinnedFor n (localAddr pa) then p
      else
        let la := f (localAddr pa)
        let s := (s.detect (sectorOf la)).detect (sectorOf la + 1)
        let v : Nat ⊕ BitVec 1024 := match [la, la + 64].find? fun a => s.lost (sectorOf a) with
          | some a => .inl a
          | none => .inr (BitVec.ofNat 1024 (s.readKey la 128))
        (s, { c with served := c.served ++ [(pa, v)] })
    let (s, c) := (c.lines.filter fun pa => !(c.served.any (·.1 == pa))).foldl step (s, c)
    s.modTile n fun t => t.setSeq u { t.seq u with copying := some c }

/-- The held read of a hart's command is served (11 R283, 12 R296). -/
def State.serveHeldCmd (s : State) (n engine num : Nat) (pass : Pass) (keep : Nat → Bool) : State :=
  match s.current n engine with
  | none => s
  | some c =>
    if keep c.ctx && c.waiting == some .held && s.pinnedBy num c.line then s.retryCmd n engine pass
    else s

/-- A held F/E load of word `o` of tile `n` is served where the word is FULL; otherwise it waits
there from now on (13 R335, 06 R139). -/
def State.serveHeldFe (s : State) (n : Nat) (f : Nat → Nat) (w : FeWait) : State :=
  let t := s.getTile n
  let full := !t.isEmpty w.addr
  let v : Word := if w.kind = .feget then bit full
    else BitVec.ofNat 64 (s.readKey (f (0x10000000000 + n * 0x400000 + w.addr)) 8)
  let served := if full ∨ w.kind = .feget then some v else none
  let t := { t with feWaits := t.feWaits.map fun x =>
    if x = w then { x with held := false, served := served } else x }
  s.setTile n (if full ∧ w.kind = .ldwe then t.setEmpty w.addr else t)

/-- The held F/E loads of the words of a compact's ranges, and what waits there then. -/
def State.serveHeldWaits (s : State) (num : Nat) (f : Nat → Nat) (keep : Nat → Bool) : State :=
  let words := (s.pins.filter (·.compact == num)).flatMap fun p =>
    ((s.getTile p.tile).feWaits.filter fun w => w.held && keep (s.getTile w.tile).ctx &&
      decide (p.first ≤ w.addr / 0x10000) && decide (w.addr / 0x10000 < p.first + p.pages.length)).map
      fun w => (p.tile, w)
  words.foldl (fun s p => (s.serveHeldFe p.1 f p.2).serveWaits p.1 p.2.addr
    ((s.getTile p.1).feWaits.length + 1)) s

/-- Everything that is held at the members of a compact is served, its reads at addresses `f`, for
the contexts that `keep` names (13 R335). -/
def State.serveHeld (s : State) (num : Nat) (f : Nat → Nat) (keep : Nat → Bool) : State :=
  let touches (accs : List Acc) : Bool :=
    accs.any fun a => s.isLocal a.pa && s.pinnedBy num (localAddr a.pa)
  let reqs := s.tiles.flatMap fun p => (p.2.reqs.filter fun q =>
    q.parked == some .held && keep q.ctx && touches q.accs).map fun q => (p.1, q)
  let s := (sortBy (fun a b => decide (a.2.arrival ≤ b.2.arrival)) reqs).foldl
    (fun s p => s.serveHeldReq p.1 p.2 num f) s
  let remote := s.tiles.flatMap fun p => (p.2.remote.filter fun r =>
    r.parked == some .held && keep r.ctx && touches r.accs).map fun r => (p.1, r)
  let s := remote.foldl (fun s p => s.serveHeldRemote p.1 p.2 num f) s
  let s := (s.tiles.filter fun p => keep p.2.ctx).foldl (fun s p =>
    ((s.serveHeldWords p.1 num f).serveHeldCopy p.1 num f .as).serveHeldCopy p.1 num f .ss) s
  let s := s.serveHeldDisp num f keep
  let cmds := s.tiles.flatMap fun p => [0, 1, 2].map fun e => (p.1, e)
  let s := cmds.foldl (fun s p => s.serveHeldCmd p.1 p.2 num (some (num, f)) keep) s
  s.serveHeldWaits num f keep

/-- The backing address of an address in the ranges of a compact (13 R319). -/
def State.backingOf (s : State) (num la : Nat) : Nat :=
  match regionOf la with
  | .window n off =>
    (match s.pins.find? fun p => p.tile == n && p.compact == num &&
        decide (p.first ≤ off % 0x80000 / 0x10000) &&
        decide (off % 0x80000 / 0x10000 < p.first + p.pages.length) with
     | some p => p.pages.getD (off % 0x80000 / 0x10000 - p.first) 0 * 0x10000 + off % 0x10000
     | none => la)
  | .hbm | .launch _ | .regs _ | .appSram | .appRegs _ | .hostMem | .unmapped => la

/-- The backing lines that held loads of a compact read. -/
def State.readLines (s : State) (num : Nat) : List Nat :=
  let lines (accs : List Acc) : List Nat := (accs.filter fun a => !a.done && s.isLocal a.pa &&
    s.pinnedBy num (localAddr a.pa)).map fun a => lineOf (s.backingOf num (localAddr a.pa))
  s.tiles.flatMap fun p =>
    ((p.2.reqs.filter (·.parked == some .held)).flatMap fun q => lines q.accs) ++
    (p.2.remote.filter (·.parked == some .held)).flatMap fun r => lines r.accs

/-- A parked write that names a window address of a segment that is now in cache use: it performs
nothing (13 R335). -/
def State.noScratch (s : State) (accs : List Acc) : Bool :=
  accs.any fun a => s.isLocal a.pa && match regionOf (localAddr a.pa) with
    | .window n off => !(s.getTile n).scratch (off % 0x80000 / 0x10000)
    | .hbm | .launch _ | .regs _ | .appSram | .appRegs _ | .hostMem | .unmapped => false

/-- A request that was parked at a pinned line is taken up again (13 R335). -/
def State.replayReq (s : State) (n id : Nat) : State :=
  match (s.getTile n).reqs.find? (·.id == id) with
  | none => s
  | some q =>
    let q := { q with parked := none }
    if s.noScratch q.accs then
      s.atTile n fun s =>
        (s.setReq { q with
          answered := true, error := some (q.fault .storefault reasonNOTSCRATCH) }).respond q.id
    else (s.atTile n (·.setReq q)).serveAgain n id

/-- The same for an RLD or RST. -/
def State.replayRemote (s : State) (n id : Nat) : State :=
  match (s.getTile n).remote.find? (·.id == id) with
  | none => s
  | some r => s.atTile n fun s =>
    if s.noScratch r.accs then
      s.replyRemote r (some ((s.asReq r).fault .storefault reasonNOTSCRATCH))
    else (s.setRemote { r with parked := none }).serveRemote id fun _ => true

/-- What is parked at a line: a request or an RLD or RST of a tile by its number, or an access for a
command of a tile on an engine. -/
inductive ParkedAt where
  | req (tile id : Nat)
  | remote (tile id : Nat)
  | cmd (tile engine : Nat)
  deriving DecidableEq, Repr

/-- The accesses parked at pinned lines that no range holds any more, each with its place in the
order in which they were parked. -/
def State.freedPins (s : State) : List (Nat × ParkedAt) :=
  let free (n : Nat) (accs : List Acc) : Bool :=
    accs.all fun a => !s.isLocal a.pa || !s.pinnedFor n (localAddr a.pa)
  s.tiles.flatMap fun p =>
    ((p.2.reqs.filter fun q => q.parked == some .pinned && free p.1 q.accs).map fun q =>
      (q.arrival, .req p.1 q.id)) ++
    ((p.2.remote.filter fun r => r.parked == some .pinned && free p.1 r.accs).map fun r =>
      (r.arrival, .remote p.1 r.id)) ++
    p.2.cmds.flatMap fun c => (c.entries.filter fun e =>
      e.1 == .pinned && !s.pinnedAny e.2.1).map fun e => (e.2.2, .cmd p.1 c.engine)

/-- Accesses that were parked at a pinned line replay in the order in which they were parked, where
no range holds them any more (13 R335, 08 R198, 11 R283). -/
def State.replayPinned (s : State) : State :=
  (sortBy (fun a b => decide (a.1 ≤ b.1)) s.freedPins).foldl (fun s p =>
    match p.2 with
    | .req n id => s.replayReq n id
    | .remote n id => s.replayRemote n id
    | .cmd n e => s.retryCmd n e none) s

/-! ### The superstep barrier (13 R328, R337–R340) -/

/-- A snapshot is due at a count (13 R339). -/
def State.snapDue (s : State) (c : Compact) (count : Nat) : Bool :=
  c.snap && ((c.snapInt != 0 && count % c.snapInt == 0) ||
    c.members.any fun m => (s.getTile m.tile).member.snapRequested)

/-- SUPERSTEP_BARRIER: every member of compact `n₁` has arrived; `flag` says so of those on other
devices. Held loads are served and a snapshot is taken before any member goes on (13 R328, R335,
R339); a mismatch of twins rolls back instead (13 R340). -/
def execSuperstepBarrier (s : State) : Host.Outcome State Fault Refusal :=
  let a := s.arg
  .next (match s.compacts.find? (fun c => c.num == a.n₁ && c.signed) with
    | none => s
    | some c =>
      let phases (p : Phase) : Bool := c.members.all fun m => (s.getTile m.tile).member.phase == p
      if !s.allArrived c a.flag || !phases .barrier then s
      else if c.mismatch || !c.copies.isEmpty then
        let bank := match c.members with
          | m :: _ => s.tileBank m.tile
          | [] => 0
        ((s.record bank 7 true false 0 0).modCompact c.num fun c => { c with
          mismatch := false, copies := [] }).post
          .rollback { EventArg.none with n₁ := c.num }
      else
        let count := (match c.members with
          | m :: _ => (s.getTile m.tile).member.count
          | [] => 0) + 1
        let due := s.snapDue c count
        if due && c.members.any fun m =>
            (s.getTile m.tile).reqs.any fun q => q.parked != some .held then s
        else
          let s := s.serveHeld c.num (s.pinLa 2048) fun _ => true
          let s := c.members.foldl (fun s m => s.modMember m.tile fun x => { x with
            phase := .compute, count := count, hatch := [] }) s
          let c := { c with arrived := [], gen := c.gen + 1, remoteIn := [], beats := [] }
          let s := s.setCompact c
          if due then s.snapshot c false count else s)

/-- The words of a member's latest snapshot: its context, in the layout of a save. -/
def State.snapWord (s : State) (m : CMember) (i : Nat) : Word :=
  if m.twin then (s.getTile m.token).stateWord s.gtc m.token [] i
  else s.areaWord (m.snapPages.drop m.segs) i

/-- The range of a member as its latest snapshot has it (13 R338): the sectors written since, and
with its context the full/empty bits. -/
def State.restoreRange (s : State) (c : Compact) (m : CMember) (context : Bool) : State :=
  let t := s.getTile m.tile
  let back (t : Tile) (sec : Nat) : Tile :=
    let off := sec * 64
    let k := off / 0x10000
    if k < m.first ∨ m.first + m.segs ≤ k then t
    else
      let pa := m.snapPages.getD (k - m.first) 0 + off % 0x10000
      let v := s.readKey (s.keyOf pa) 64
      writeLE (fun (t : Tile) a b => { t with sram := t.sram.write a b }) t off v 64
  let old := (t.loadFrom t (s.snapWord m) (fun _ _ => 0) t.level).empty
  let s := t.member.written.foldl (fun s sec =>
    s.cleanse (scratchSector m.tile 0 + sec)) s
  let t := t.member.written.foldl back t
  s.setTile m.tile { t with
    empty := if context then
        (old.filter m.inRange).foldl insertNat (t.empty.filter fun o => !m.inRange o)
      else t.empty
    member := { t.member with
      phase := .compute, count := c.snapAt, hatch := [], written := [], snapRequested := false } }

/-- The loads of a hart that are under way are discarded, RLDs with the entries that they have
reserved, and its writes give no result any more (13 R338). -/
def Tile.dropLoads (t : Tile) : Tile :=
  { t with
    reqs := (t.reqs.filter (·.kind != .load)).map fun q => { q with dest := .none }
    remote := t.remote.filter (·.write)
    channels := Vector.ofFn fun i =>
      let c := vget t.channels i.val Channel.closed
      { c with reserved := c.reserved -
          (t.remote.filter fun r => !r.write && r.chan == i.val).length } }

/-- A hart with the context of its latest snapshot (13 R338); what has left the hart is not
undone. -/
def State.restoreContext (s : State) (m : CMember) (t : Tile) : Tile :=
  let t := t.dropLoads
  let h := s.getTile m.token
  let r := t.loadFrom h (s.snapWord m) (fun _ _ => 0) h.level
  { r with
    eh := { r.eh with pc := h.eh.pc, wait := 0, begun := none }
    cr := { r.cr with segmode := t.cr.segmode, status := h.cr.status }
    sram := t.sram
    empty := t.empty
    feWaits := t.feWaits.filter (·.task.isNone)
    cache := t.cache
    reqs := t.reqs
    deferred := []
    cmds := t.cmds
    channels := t.channels
    inj := t.inj
    remote := t.remote
    place := t.place
    member := { t.member with barrier := none, left := none }
    away := t.away }

/-- A member returns to its latest snapshot (13 R338), its context too unless the compact halts. -/
def State.restoreMember (s : State) (c : Compact) (m : CMember) (context : Bool) : State :=
  let s := s.restoreRange c m context
  s.changeHart (s.hartOfMember c.num m.tile) fun t =>
    if context then s.restoreContext m t else t.noArrival

/-- ROLLBACK: compact `n₁` returns to its latest snapshot; the third rollback to one snapshot halts
it (13 R338). -/
def execRollback (s : State) : Host.Outcome State Fault Refusal :=
  .next (match s.compacts.find? (fun c => c.num == s.arg.n₁ && c.signed && c.snap) with
    | none => s
    | some c =>
      let halt := decide (3 ≤ c.rollbacksHere + 1)
      let s := c.members.foldl (fun s m =>
        let s := s.atTile m.tile (·.withdrawFe)
        let s := s.restoreMember c m (!halt)
        if halt then s.deferTo (s.hartOfMember c.num m.tile) ⟨.csignfail, csignTval 9 0, none⟩
        else s) s
      s.modCompact c.num fun c => { c with
        arrived := [], gen := c.gen + 1, released := [], slots := []
        beats := [], copies := [], remoteIn := []
        rollbacksHere := c.rollbacksHere + 1, rollbacks := c.rollbacks + 1, mismatch := false })

/-! ### Dissolving (13 R336, R343) -/

/-- CDISS (13 R336, R333). -/
def execCdiss (s : State) : Host.Outcome State Fault Refusal :=
  let q : Issue := { word := s.withStall (encode .cdiss), serial := true, illegal := (·.inTask) }
  .next (s.issue q fun s =>
    let m := s.tile.member
    match m.verdict with
    | some v => s.takeVerdict v
    | none =>
      match s.compactOf s.cur with
      | none =>
        if (match m.left with
            | some dom => s.tile.stands .cdiss dom
            | none => false) then s.endArrival.finish q
        else s.slotViol q.word 3
      | some c =>
        if m.phase = .dissolving ∧ s.tile.stands .cdiss c.bdom then
          (if s.tile.arrivalGen = c.gen then s.stay 0 else s.endArrival.finish q)
        else if m.phase ≠ .compute then s.slotViol q.word 3
        else if s.rangeBusy || !s.released then s.stay 0
        else
          let s := (s.arriveCompact c).modMember s.cur fun m => { m with phase := .dissolving }
          ((s.noteArrival .cdiss c.bdom c.gen).whenAll c.num .compactDissolve).stay 0)

/-- The lines of a range become owned lines of the member's tile cache (13 R336). Backing in a tile
window never stands in a cache: it takes the bytes themselves (log 70). -/
def State.publish (s : State) (c : Compact) (m : CMember) : State :=
  let t := s.getTile m.tile
  let window (page : Nat) : Bool := match regionOf (s.keyOf page) with
    | .window _ _ => true
    | .hbm | .launch _ | .regs _ | .appSram | .appRegs _ | .hostMem | .unmapped => false
  let s := (m.pages.zipIdx.filter fun p => window p.1).foldl (fun s p =>
    (List.range 8192).foldl (fun s k => s.writeMem c.ctx (s.keyOf p.1 + 8 * k) 8
      (readLE t.sram.read ((m.first + p.2) * 0x10000 + 8 * k) 8)) s) s
  let lines := (m.pages.zipIdx.filter fun p => !window p.1).flatMap fun p => (List.range 512).map fun k =>
    ({ addr := s.keyOf p.1 + 128 * k
       data := BitVec.ofNat 1024 (readLE t.sram.read ((m.first + p.2) * 0x10000 + 128 * k) 128)
       way := m.first + p.2
       owned := true
       valid0 := true, valid1 := true, dirty0 := true, dirty1 := true
       tag0 := c.ctx, tag1 := c.ctx } : CacheLine)
  s.modTile m.tile fun t => { t with cache := t.cache ++ lines }

/-- The pins of a compact are removed, and its members are FREE. -/
def State.unpin (s : State) (c : Compact) : State :=
  let s := c.members.foldl (fun s m =>
    let verdict := (s.getTile m.tile).member.verdict
    s.freeMember c.num m.tile fun x =>
      { Member.free with verdict := verdict, barrier := x.barrier, left := some c.bdom }) s
  { s with pins := s.pins.filter (·.compact != c.num)
           compacts := s.compacts.filter (·.num != c.num) }

/-- Compact states behind snapshots are forgotten. -/
def State.dropSnapshots (s : State) (c : Compact) : State :=
  { s with others := s.others.filter fun (p : Nat × Tile) =>
      !(c.members.any fun m => m.token != 0 && m.token == p.1) }

/-- The segments of a range that stand in a hart's SEGMODE are those of scratchpad use no more. -/
def Tile.withoutRange (t : Tile) (m : CMember) : Tile :=
  { t with
    cr := { t.cr with segmode := t.cr.segmode &&& ~~~((rangeMask m.first m.segs).setWidth 64) }
    sram := t.sram.filter fun p => !m.inRange p.1
    empty := t.empty.filter fun o => !m.inRange o }

/-- COMPACT_DISSOLVE: every member of compact `n₁` has arrived at CDISS; `flag` says so of those on
other devices. The home serves the held loads from the published lines, which it recalls
(13 R336). -/
def execCompactDissolve (s : State) : Host.Outcome State Fault Refusal :=
  let a := s.arg
  .next (match s.compacts.find? (fun c => c.num == a.n₁ && c.signed) with
    | none => s
    | some c =>
      if !s.allArrived c a.flag ||
          !(c.members.all fun m => (s.getTile m.tile).member.phase == .dissolving) then s
      else
        let read := s.readLines c.num
        let s := s.serveHeld c.num (s.pinLa 2048) fun _ => true
        let before := s
        let s := (s.unpin c).dropSnapshots c
        let s := c.members.foldl (fun s m =>
          let data := s
          let sp : BitVec 8 := slice (s.getTile m.tile).cr.segmode 0 8 &&& ~~~(rangeMask m.first m.segs)
          let s := s.convert m.tile sp
          let k := before.hartOfMember c.num m.tile
          let s := if k = m.tile then s else s.changeHart k (·.withoutRange m)
          if m.twin then s
          else
            let t := data.getTile m.tile
            (s.modTile m.tile fun x => { x with sram := t.sram }).publish c m |>.modTile m.tile
              fun x => { x with sram := (s.getTile m.tile).sram }) s
        (read.foldl (·.recall ·) s).replayPinned)

/-- The compacts of a killed context are dissolved without publication; a compact with members of
another device that was killed there hears of it (13 R343). -/
def State.killCompacts (s : State) (ctx : Nat) : State :=
  let mine := s.compacts.filter (·.ctx == ctx)
  let s := mine.foldl (fun s c =>
    let s := s.serveHeld c.num (s.backingOf c.num) (· != ctx)
    (s.unpin c).dropSnapshots c) s
  s.replayPinned

/-- Members here of a compact whose context another device has killed (13 R343). -/
def State.killedElsewhere (s : State) (ctx : Nat) : State :=
  (s.compacts.filter fun c => c.ctx == ctx && c.far && c.signed).foldl (fun s c =>
    c.members.foldl (fun s m => s.modMember m.tile fun x => { x with verdict := some ⟨10, 0, none⟩ }) s) s

/-! ### Barrier domains (13 R331–R334) -/

/-- BARDOM (13 R331, R334). -/
def execBardom (st : StallCode) (a b : XReg) (s : State) : Host.Outcome State Fault Refusal :=
  let q : Issue := { word := encode (.bardom st a b), stall := st, reads := [.x a, .x b],
                     illegal := (·.inTask) }
  .next (s.issue q fun s =>
    let dom := (slice (s.readX a) 0 6).toNat
    let va := s.readX b
    let die := dieOf s.cur
    if va.toNat % 64 ≠ 0 then s.raise ⟨.misalign, va, some (mfinfoOf 0 0 0 0)⟩
    else if s.acquiring || !s.releasedAt 0 then s.stay 0
    else match s.readWords va 8 with
      | (s, .error (.trap t)) => s.raise t
      | (s, .error .held) | (s, .error .lost) => s.stay 0
      | (s, .ok ws) =>
        let set := (List.range 512).filter fun t => bitAt (ws.getD (t / 64) 0) (t % 64)
        let tiles := set.map (· + die * 512)
        if !s.tile.grants dom || s.compacts.any (·.holdsDomain die dom) then
          s.raise ⟨.gangerr, gangerrTval q.word 10, none⟩
        else if (match s.domainOf die dom with
            | some d => !d.arrived.isEmpty
            | none => false) || tiles.any fun t => match (s.getTile t).place, s.tile.place with
              | some x, some y => !(x.lid == y.lid && x.gang == y.gang)
              | _, _ => true then
          s.raise ⟨.gangerr, gangerrTval q.word 11, none⟩
        else
          let rest := s.domains.filter fun d => !(d.die == die && d.num == dom)
          let s := { s with domains := if tiles.isEmpty then rest
            else ⟨die, dom, tiles, 0, []⟩ :: rest }
          s.finish q)

/-- BAR (13 R332–R334). -/
def execBar (st : StallCode) (a : XReg) (s : State) : Host.Outcome State Fault Refusal :=
  let q : Issue := { word := encode (.bar st a), stall := st, reads := [.x a] }
  .next (s.issue q fun s =>
    let dom := (slice (s.readX a) 0 6).toNat
    let die := dieOf s.cur
    let stands := s.tile.stands .bar dom
    match s.domainOf die dom with
    | none => s.raise ⟨.gangerr, gangerrTval q.word 12, none⟩
    | some d =>
      if s.compacts.any (·.holdsDomain die dom) || !d.tiles.contains s.cur then
        s.raise ⟨.gangerr, gangerrTval q.word 12, none⟩
      else if stands then
        (if s.tile.arrivalGen = d.gen then s.stay 0 else s.endArrival.finish q)
      else if !s.released then s.stay 0
      else
        let d := { d with arrived := insertNat d.arrived s.cur }
        let s := { s with domains := s.domains.map fun (x : Domain) =>
          if x.die = die ∧ x.num = dom then d else x }
        let s := s.noteArrival .bar dom d.gen
        (if d.tiles.all (d.arrived.contains ·) && !s.choice.defer then
           s.post .barComplete { EventArg.none with n₁ := die, n₂ := dom } else s).stay 0)

/-- BAR_COMPLETE: completion of domain `n₂` of die `n₁` reaches its members (13 R332). -/
def execBarComplete (s : State) : Host.Outcome State Fault Refusal :=
  let a := s.arg
  .next { s with domains := s.domains.map fun (d : Domain) =>
    if d.die = a.n₁ ∧ d.num = a.n₂ ∧ d.tiles.all (d.arrived.contains ·) then
      { d with gen := d.gen + 1, arrived := [] } else d }

/-! ### Status (13 R339, R341) -/

/-- SNAP (13 R339). -/
def execSnap (st : StallCode) (d a : XReg) (s : State) : Host.Outcome State Fault Refusal :=
  let q : Issue := { word := encode (.snap st d a), stall := st, reads := [.x a], writes := [.x d],
                     illegal := (·.inTask) }
  .next (s.issue q fun s =>
    match s.compactOf s.cur with
    | none => (s.commitX d (BitVec.allOnes 64)).finish q
    | some c =>
      if !c.signed || !c.snap then (s.commitX d (BitVec.allOnes 64)).finish q
      else
        let want := bitAt (s.readX a) 0
        let s := if want then s.modMember s.cur fun m => { m with snapRequested := true } else s
        (s.commitX d (BitVec.ofNat 64 c.snapAt)).finish q)

/-- The word that CSTAT selects (13 R341). -/
def statusWord (m : Member) (c : Compact) (k : Nat) : Word :=
  match k with
  | 0 => 0#30 ++ BitVec.ofNat 6 c.bdom ++ BitVec.ofNat 20 m.index ++ 0#2 ++
      (if m.twin then 1#1 else 0#1) ++ (if c.twin then 1#1 else 0#1) ++
      (if c.snap then 1#1 else 0#1) ++ BitVec.ofNat 3 m.phase.code
  | 1 => BitVec.ofNat 64 m.count
  | 2 => BitVec.ofNat 64 m.miss
  | 3 => if c.signed && c.snap then BitVec.ofNat 64 c.snapAt else BitVec.allOnes 64
  | 4 => BitVec.ofNat 64 c.rollbacks
  | 5 => c.cid.setWidth 64
  | _ => 0

/-- CSTAT (13 R341). -/
def execCstat (st : StallCode) (d a : XReg) (s : State) : Host.Outcome State Fault Refusal :=
  let q : Issue := { word := encode (.cstat st d a), stall := st, reads := [.x a], writes := [.x d] }
  .next (s.issue q fun s =>
    let v : Word := match s.compactOf s.cur with
      | none => 0
      | some c => statusWord s.tile.member c (slice (s.readX a) 0 4).toNat
    (s.commitX d v).finish q)

end Sys2Proof.Machine
end

