-- ==== Sys2Proof/Machine/Sha.lean ====
section
/-! DEFINITION. SHA-512, by which the measurements of 17 R441 are taken. The standard (FIPS 180-4)
lies outside the spec (log 23). -/
namespace Sys2Proof

/-- The largest number whose power does not exceed `n`, its lowest `k` bits being sought above
`r`. -/
def rootBelow (p n : Nat) : Nat → Nat → Nat
  | 0, r => r
  | k + 1, r => rootBelow p n k (if (r + 2 ^ k) ^ p ≤ n then r + 2 ^ k else r)

/-- The first primes. -/
def shaPrimes : List Nat :=
  (((List.range 410).filter fun n => 2 ≤ n && (List.range n).all fun d => d < 2 || n % d != 0)).take 80

/-- The constants: fractions of the cube roots of the primes. -/
def shaK : List Word := shaPrimes.map fun p => BitVec.ofNat 64 (rootBelow 3 (p * 2 ^ 192) 68 0)

/-- The initial value: fractions of the square roots of the first eight primes. -/
def shaInit : List Word :=
  (shaPrimes.take 8).map fun p => BitVec.ofNat 64 (rootBelow 2 (p * 2 ^ 128) 68 0)

/-- The message padded to blocks of 128 bytes. -/
def shaPad (m : List Byte) : List Byte :=
  let n := m.length
  let zeros := (239 - n % 128) % 128
  m ++ [0x80#8] ++ List.replicate zeros 0 ++
    ((List.range 16).map fun i => BitVec.ofNat 8 (8 * n / 256 ^ (15 - i)))

/-- Eight bytes, most significant first. -/
def shaWord (m : List Byte) (i : Nat) : Word :=
  (List.range 8).foldl (fun w k => (w <<< 8) ||| (m.getD (8 * i + k) 0).setWidth 64) 0

/-- The schedule of a block, newest word first. -/
def shaSchedule (m : List Byte) : List Word :=
  (List.range 64).foldl (fun w _ =>
    let a := w.getD 14 0
    let b := w.getD 1 0
    let s0 := a.rotateRight 1 ^^^ a.rotateRight 8 ^^^ (a >>> 7)
    let s1 := b.rotateRight 19 ^^^ b.rotateRight 61 ^^^ (b >>> 6)
    (w.getD 15 0 + s0 + w.getD 6 0 + s1) :: w) ((List.range 16).map (shaWord m)).reverse

/-- One round on the eight working words. -/
def shaRound (v : List Word) (kw : Word) : List Word :=
  let x (i : Nat) : Word := v.getD i 0
  let e := x 4
  let a := x 0
  let t1 := x 7 + (e.rotateRight 14 ^^^ e.rotateRight 18 ^^^ e.rotateRight 41) +
    ((e &&& x 5) ^^^ (~~~e &&& x 6)) + kw
  let t2 := (a.rotateRight 28 ^^^ a.rotateRight 34 ^^^ a.rotateRight 39) +
    ((a &&& x 1) ^^^ (a &&& x 2) ^^^ (x 1 &&& x 2))
  [t1 + t2, a, x 1, x 2, x 3 + t1, e, x 5, x 6]

/-- A block taken into the hash value. -/
def shaBlock (h : List Word) (m : List Byte) : List Word :=
  let w := (shaSchedule m).reverse
  let v := (shaK.zip w).foldl (fun v p => shaRound v (p.1 + p.2)) h
  (h.zip v).map fun p => p.1 + p.2

/-- Blocks of 128 bytes, `n` of them. -/
def shaBlocks (m : List Byte) (h : List Word) : Nat → List Word
  | 0 => h
  | n + 1 => shaBlocks (m.drop 128) (shaBlock h (m.take 128)) n

/-- The digest, as a number of 512 bits. -/
def sha512 (m : List Byte) : Nat :=
  let p := shaPad m
  (shaBlocks p shaInit (p.length / 128)).foldl (fun n w => n * 2 ^ 64 + w.toNat) 0

end Sys2Proof
end

