-- ==== Sys2Proof/Machine/Work.lean ====
section
/-! DEFINITION. Launches, placement and ageing, domain gangs, graphs, mailboxes and tasks (15). -/
namespace Sys2Proof.Machine

/-! ### The launch record (15 R372) -/

/-- Word `i` of a record. -/
def recWord (ws : List Word) (i : Nat) : Word := ws.getD i 0

/-- A field of a record. -/
def recField (ws : List Word) (i lo n : Nat) : Nat := (slice (recWord ws i) lo n).toNat

def recKind (ws : List Word) : Nat := recField ws 0 0 4
def recPrio (ws : List Word) : Nat := recField ws 0 4 3
def recJoint (ws : List Word) : Bool := bitAt (recWord ws 0) 8
def recBackfill (ws : List Word) : Bool := bitAt (recWord ws 0) 9
def recRotate (ws : List Word) : Bool := bitAt (recWord ws 0) 10
def recDomain (ws : List Word) : Bool := bitAt (recWord ws 0) 11
/-- Harts in a group, groups in a gang, barrier domains of a gang. -/
def recSize (ws : List Word) : Nat := recField ws 0 16 5 + 1
def recGroups (ws : List Word) : Nat := recField ws 0 24 4 + 1
def recBdoms (ws : List Word) : Nat := recField ws 0 28 4
/-- Gangs in the grid, and the run bound in µs. -/
def recGangs (ws : List Word) : Nat := recField ws 1 0 32 + 1
def recBound (ws : List Word) : Nat := recField ws 1 32 32
/-- The dies on which gangs may be placed, ascending. -/
def recDies (ws : List Word) : List Nat :=
  let m : BitVec 4 := slice (recWord ws 0) 40 4
  (List.range 4).filter fun k => m == 0 || bitAt m k
/-- The stall time in ns (15 R372, R386). -/
def recGridwait (ws : List Word) : Nat :=
  let g := recField ws 7 0 16
  (if g = 0 then 20 else g) * 100000

/-- The bits that the table of 15 R372 names, by word. -/
def recNamed (i : Nat) : Word :=
  match i with
  | 0 => 0xFFFFF1F0F7F#64
  | 7 => 0xFFFFFFFF#64
  | 9 => 0xFFFFFFFFFFFF#64
  | 10 | 11 | 12 | 13 | 14 => 0
  | _ => BitVec.allOnes 64

/-- Code 1 of 15 R373. -/
def recMalformed (ws : List Word) (node : Bool) : Bool :=
  (List.range 15).any (fun i => recWord ws i &&& ~~~recNamed i != 0) ||
    decide (recKind ws ≠ 1 ∧ (recKind ws ≠ 2 ∨ node)) || decide (recField ws 2 0 2 ≠ 0) ||
    (recJoint ws && decide (recSize ws % 8 ≠ 0)) || decide (8 < recBdoms ws) ||
    (!node && decide (recWord ws 9 ≠ 0))

/-- Code 4 of 15 R373. -/
def recDomainBad (ws : List Word) : Bool :=
  let n := recField ws 7 16 16
  if recDomain ws then decide (n < 2 ∨ 3072 < n) else decide (n ≠ 0) || decide (recWord ws 8 ≠ 0)

/-! ### Places (15 R381, 01 R24) -/

/-- The clusters of a region of a die: a half where `whole` is not set. -/
def regionClusters (whole : Bool) (die region : Nat) : List Nat :=
  if whole then (List.range 16).map (· + 16 * die)
  else (List.range 8).map (· + 16 * die + 8 * region)

/-- A gang with these fields needs whole dies. -/
def recWhole (ws : List Word) : Bool := decide (256 < recSize ws * recGroups ws)

/-- The regions of a die that a gang may be placed in. -/
def recRegions (ws : List Word) : List Nat := if recWhole ws then [0] else [0, 1]

/-- The tiles of a group in a cluster: whole rows from a row boundary, or the lowest free ones. -/
def groupIn (free : Nat → Bool) (joint : Bool) (size c : Nat) : Option (List Nat) :=
  if joint then
    ((List.range (5 - size / 8)).map fun r => (List.range size).map (· + 32 * c + 8 * r)).find?
      (·.all free)
  else
    let l := ((List.range 32).map (· + 32 * c)).filter free
    if size ≤ l.length then some (l.take size) else none

/-- Groups placed in ascending index, each at the lowest free position (15 R381). -/
def placeGroups (free : Nat → Bool) (joint : Bool) (size : Nat) (cs : List Nat) :
    Nat → Option (List (List Nat))
  | 0 => some []
  | n + 1 =>
    match placeGroups free joint size cs n with
    | none => none
    | some l =>
      match cs.findSome? (groupIn (fun t => free t && !(l.any (·.contains t))) joint size) with
      | none => none
      | some g => some (l ++ [g])

/-- The placement of a gang in a region. -/
def fitIn (free : Nat → Bool) (ws : List Word) (die region : Nat) : Option (List (List Nat)) :=
  placeGroups free (recJoint ws) (recSize ws) (regionClusters (recWhole ws) die region) (recGroups ws)

/-- The die of a tile has power (17 R446). -/
def State.poweredTile (s : State) (n : Nat) : Bool := vget s.mgmt.powered (dieOf n) false

/-- A tile of this device on which the dispatcher places gangs: halted at FIRM with CTXID 0, or
gated (16 R410, R420), of no gang. -/
def State.openTile (s : State) (n : Nat) : Bool :=
  let t := s.getTile n
  t.placeable && s.poweredTile n && t.place.isNone && !(s.gangs.any fun g => g.tiles.contains n) &&
    (t.run == .gated || (t.run == .halted && t.ctx == 0 && t.level == 2))

/-- One with no pinned range, on which it may place any gang. -/
def State.freeTile (s : State) (n : Nat) : Bool := s.openTile n && !(s.pins.any (·.tile == n))

/-- The launch of a number. -/
def State.launch (s : State) (lid : Nat) : Option Launch := s.launches.find? (·.lid == lid)

def State.modLaunch (s : State) (lid : Nat) (f : Launch → Launch) : State :=
  { s with launches := s.launches.map fun l => if l.lid = lid then f l else l }

def State.gang (s : State) (lid idx : Nat) : Option Gang :=
  s.gangs.find? fun g => g.lid == lid && g.idx == idx

def State.modGang (s : State) (lid idx : Nat) (f : Gang → Gang) : State :=
  { s with gangs := s.gangs.map fun g => if g.lid = lid ∧ g.idx = idx then f g else g }

/-- Barrier domains of a die that no resident gang and no compact holds; the gangs in `freed` do not
count. -/
def State.freeDomains (s : State) (die : Nat) (freed : List (Nat × Nat)) : List Nat :=
  (List.range 64).filter fun d => !(s.gangs.any fun g => g.die == die && bitAt g.domains d &&
    !(freed.contains (g.lid, g.idx))) && !(s.compacts.any (·.holdsDomain die d))

/-- `n` free barrier domains as a mask. -/
def State.grantMask (s : State) (die n : Nat) (freed : List (Nat × Nat)) : Option (BitVec 64) :=
  let l := s.freeDomains die freed
  if n ≤ l.length then some ((l.take n).foldl (fun m d => m ||| (1#64 <<< d)) 0) else none

/-- The barrier domains of a placement: a gang that has been saved takes the numbers that it had,
where they are free (13 R344), and any gang otherwise the lowest free ones. -/
def State.grantFor (s : State) (die n : Nat) (kept : BitVec 64) : Option (BitVec 64) :=
  if kept ≠ 0 ∧ !(s.gangs.any fun g => g.die == die && decide (g.domains &&& kept ≠ 0)) then some kept
  else s.grantMask die n []

/-- A gang that waits for a place: its launch and index, whether it has been saved, whether it
comes first in its priority, and its order of entry there. -/
structure Waiting where
  launch : Launch
  idx : Nat
  saved : Bool
  front : Bool
  stamp : Nat
  deriving DecidableEq, Repr

/-- The tiles that a saved gang with members of a compact has to return to (13 R342). -/
def State.boundTiles (s : State) (w : Waiting) : Option (List Nat) :=
  if !w.saved then none
  else match s.gang w.launch.lid w.idx with
    | none => none
    | some g =>
      if g.saved.any fun h => (s.getTile h.store).member.phase != .free then
        some (g.saved.map (·.tile))
      else none

/-- The tiles of a region. -/
def regionTiles (whole : Bool) (die region : Nat) : List Nat :=
  (regionClusters whole die region).flatMap fun c => (List.range 32).map (· + 32 * c)

/-- The placement of a gang that waits in a region, the tiles `freed` counting as free too. A saved
gang with members of a compact has only its own tiles, which hold its pinned ranges (13 R342). -/
def State.fitFor (s : State) (w : Waiting) (freed : List Nat) (die region : Nat) :
    Option (List (List Nat)) :=
  let ws := w.launch.words
  let gone (n : Nat) : Bool := freed.contains n && (s.getTile n).placeable && s.poweredTile n
  match s.boundTiles w with
  | none => fitIn (fun n => s.freeTile n || gone n) ws die region
  | some ts =>
    if ts.all fun n => (s.openTile n || gone n) && (regionTiles (recWhole ws) die region).contains n then
      some [ts] else none

/-- The groups, the region and the barrier domains of a placement on a die, where it fits and `ok`
allows its tiles. -/
def State.fits (s : State) (w : Waiting) (die : Nat) (ok : List Nat → Bool) :
    Option (Nat × List (List Nat) × BitVec 64) :=
  let ws := w.launch.words
  let kept := match s.gang w.launch.lid w.idx with
    | some g => g.kept
    | none => 0
  match s.grantFor die (recBdoms ws) kept with
  | none => none
  | some mask =>
    (recRegions ws).findSome? fun r =>
      match s.fitFor w [] die r with
      | none => none
      | some gs => if ok gs.flatten then some (r, gs, mask) else none

/-! ### The order of the queues (15 R382) -/

/-- The domain gang of a launch that waits here: one whose HOLD stands (15 R387). -/
def State.heldFor (s : State) (lid idx : Nat) : Bool :=
  s.domainGangs.any fun d => d.lid == lid && d.idx == idx && d.wanted && !d.started

/-- The gangs that wait in the queues of a die. -/
def State.waiting (s : State) (die : Nat) (backfill : Bool) : List Waiting :=
  s.launches.flatMap fun l =>
    let live := recKind l.words == 1 && (l.state == .queued || l.state == .running) &&
      (recDies l.words).contains die
    let fresh :=
      if live && recBackfill l.words == backfill && decide (l.started < recGangs l.words) &&
          (s.gang l.lid l.started).isNone && (!recDomain l.words || s.heldFor l.lid l.started) then
        [(⟨l, l.started, false, false, 0⟩ : Waiting)]
      else []
    let again := (s.gangs.filter fun g => g.lid == l.lid && g.state == .requeued && live &&
        (if g.front then !backfill && g.die == die else recBackfill l.words == backfill)).map
      fun g => (⟨l, g.idx, true, g.front, g.stamp⟩ : Waiting)
    fresh ++ again

/-- The age of a gang at a die (15 R385). -/
def State.ageOf (s : State) (die lid idx : Nat) : Nat :=
  match (vget s.heads die []).find? fun h => h.lid == lid && h.idx == idx with
  | some h => h.age
  | none => 0

/-- The count of placements of a context at a priority on a die, and its weight. -/
def State.countOf (s : State) (die prio ctx : Nat) : Nat :=
  match s.placed.find? fun p => p.die == die && p.prio == prio && p.ctx == ctx with
  | some p => p.count
  | none => 0

def State.weightOf (s : State) (ctx : Nat) : Nat := max 1 (slice (s.blockWord ctx 0) 0 8).toNat

/-- The place of a launch in the order of arrival. -/
def State.arrivalOf (s : State) (lid : Nat) : Nat := s.launches.findIdx (·.lid == lid)

/-- `a` comes before `b` in the order of 15 R382; a domain gang that a HOLD names is treated as the
head (15 R387, log 45). -/
def State.comesBefore (s : State) (die : Nat) (a b : Waiting) : Bool :=
  let old (w : Waiting) : Bool := decide (16 ≤ s.ageOf die w.launch.lid w.idx)
  let arrival (w : Waiting) : Nat := s.arrivalOf w.launch.lid
  let early : Bool := decide (arrival a < arrival b) ||
    (arrival a == arrival b && (if a.saved != b.saved then b.saved
      else if a.saved then decide (a.stamp < b.stamp) else decide (a.idx < b.idx)))
  let held (w : Waiting) : Bool := recDomain w.launch.words && !w.saved
  if held a ≠ held b then held a
  else if old a ≠ old b then old a
  else if old a then early
  else if a.launch.prio ≠ b.launch.prio then decide (b.launch.prio < a.launch.prio)
  else if a.front ≠ b.front then a.front
  else if a.front then decide (a.stamp < b.stamp)
  else
    let x := s.countOf die a.launch.prio a.launch.ctx * s.weightOf b.launch.ctx
    let y := s.countOf die b.launch.prio b.launch.ctx * s.weightOf a.launch.ctx
    if x ≠ y then decide (x < y)
    else if a.launch.ctx ≠ b.launch.ctx then decide (a.launch.ctx < b.launch.ctx)
    else early

/-- The first of a queue. -/
def State.first (s : State) (die : Nat) : List Waiting → Option Waiting
  | [] => none
  | w :: rest => match s.first die rest with
    | none => some w
    | some v => if s.comesBefore die v w then some v else some w

/-! ### Reserved starts and back-fill (15 R383, R384) -/

/-- The declared end of a resident gang in ns; none without a bound. -/
def State.declaredEnd (s : State) (g : Gang) : Option Nat :=
  match s.launch g.lid with
  | none => none
  | some l => let b := recBound l.words
    if b = 0 then none else some (g.startNs + b * 1000)

/-- S of a region for a blocked head: occupants with a declared end that has not passed leave one
after another (15 R383). -/
def State.reservedStart (s : State) (w : Waiting) (die region : Nat) : Option Nat :=
  let ends := sortBy (fun a b => decide (a.1 ≤ b.1)) (s.gangs.filterMap fun g =>
    if g.die = die ∧ g.tiles ≠ [] then
      match s.declaredEnd g with
      | some e => if s.gtc < e then some (e, g) else none
      | none => none
    else none)
  let try_ (k : Nat) : Option Nat :=
    let gone := ends.take (k + 1)
    let tiles := gone.flatMap fun p => p.2.tiles
    if (s.fitFor w tiles die region).isSome &&
        (s.grantMask die (recBdoms w.launch.words) (gone.map fun p => (p.2.lid, p.2.idx))).isSome then
      (ends[k]?).map (·.1) else none
  (List.range ends.length).findSome? try_

/-- The target region of a blocked head and its S (15 R383). -/
def State.target (s : State) (w : Waiting) (die : Nat) : Nat × Option Nat :=
  let rs := recRegions w.launch.words
  let known := rs.filterMap fun r => (s.reservedStart w die r).map fun t => (t, r)
  match known with
  | p :: rest =>
    let b := rest.foldl (fun b p => if p.1 < b.1 then p else b) p
    (b.2, some b.1)
  | [] =>
    let free (r : Nat) : Nat :=
      ((regionTiles (recWhole w.launch.words) die r).filter s.freeTile).length
    (rs.foldl (fun b r => if free b < free r then r else b) 0, none)

/-- A back-fill gang may take these tiles (15 R384, R385). -/
def State.backfillOk (s : State) (head : Waiting) (age : Nat) (target : Nat × Option Nat)
    (die : Nat) (w : Waiting) (tiles : List Nat) : Bool :=
  let region := regionTiles (recWhole head.launch.words) die target.1
  !(tiles.any region.contains) ||
    (decide (age < 16) && match target.2 with
      | none => true
      | some t => decide (s.gtc + recBound w.launch.words * 1000 ≤ t))

/-! ### States of launches (15 R375) -/

/-- LSTAT of a window line (15 R375); STATE 1 is PARSING. -/
def lstatWord (state code lid : Nat) : Word :=
  BitVec.ofNat 4 state ++ BitVec.ofNat 4 code ++ 0#24 ++ BitVec.ofNat 32 lid

def LaunchState.code : LaunchState → Nat
  | .queued => 2 | .running => 3 | .done => 4 | .refused => 5 | .killed => 6

/-- The line's LSTAT shows a launch while it is the latest that the line triggered. -/
def State.showState (s : State) (l : Launch) (code : Nat) : State :=
  match l.line with
  | none => s
  | some n =>
    if (slice (s.lineStat n) 0 32).toNat = l.lid % 2 ^ 32 then
      { s with lstat := putKey s.lstat n (lstatWord l.state.code code l.lid) } else s

def State.setLaunchState (s : State) (lid : Nat) (x : LaunchState) : State :=
  let s := s.modLaunch lid fun l => { l with state := x }
  match s.launch lid with
  | some l => s.showState l 0
  | none => s

/-- The dispatchers look at their queues next. -/
def State.kick (s : State) : State :=
  if s.choice.defer then s
  else [3, 2, 1, 0].foldl (fun s d => s.post .gangPlace { EventArg.none with n₁ := d }) s

/-! ### Accesses of the dispatcher (15 R373, R380, R389) -/

/-- An address in a context, translated at APP with the tables of its block (log 19). -/
def State.dispCheck (s : State) (ctx : Nat) (k : AccKind) (va : Word) : Option Xlat :=
  match s.translateAt 2048 ctx (s.blockWord ctx 1) 0 va.toNat k with
  | .error _ => none
  | .ok x =>
    let tenant := (slice (s.blockWord ctx 3) 0 6).toNat
    match (s.placeFail { kind := k, align := 0 } 0 ctx tenant x.pa).or x.poisonFail with
    | some _ => none
    | none => some x

/-- Why the dispatcher does not have what it accesses: the access fails, or is held up at a pinned
range or at its home. -/
inductive DispFail where
  | failed
  | wait
  deriving DecidableEq, Repr

/-- The held words of a reader: of the launch with a LID, or of the instruction at issue, for which
the dispatcher reads (13 R335). -/
def State.dispHeld (s : State) (who : Option Nat) : List HeldWord :=
  match who with
  | none => s.heldReads
  | some lid => (s.dispReads.filter (·.lid == lid)).map fun r => ⟨r.pa, r.value⟩

def State.dispHold (s : State) (who : Option Nat) (ctx pa : Nat) : State :=
  match who with
  | none => s.holdRead pa
  | some lid => { s with dispReads := s.dispReads ++ [⟨lid, ctx, pa, .waits⟩] }

/-- What an attempt `t` that waits leaves of itself: the words that it has asked for at pinned
ranges. Nothing else of it has taken effect. -/
def State.waitFor (s t : State) : State :=
  { s with dispReads := t.dispReads }.setCore { s.core with begun := t.core.begun }

/-- The tables of a context for an access of the dispatcher: their errors are found, and whether
they keep it waiting. -/
def State.dispTables (s : State) (ctx : Nat) (va : Word) : State × Bool :=
  let tr := s.blockWord ctx 1
  let s := s.detectTables 2048 ctx tr 0 va.toNat
  (s, (s.tableStop 2048 ctx tr 0 va.toNat).isSome)

/-- An 8-byte word read by the dispatcher. -/
def State.dispWord (s : State) (who : Option Nat) (ctx : Nat) (va : Word) :
    State × Except DispFail Word :=
  match s.dispTables ctx va with
  | (s, true) => (s, .error .wait)
  | (s, false) => match s.dispCheck ctx .load va with
    | none => (s, .error .failed)
    | some x =>
      let la := localAddr x.pa
      if !s.isLocal x.pa then (s, .ok (Config.remoteWord s.fresh x.pa))
      else match (s.dispHeld who).find? (·.pa == x.pa) with
        | some h => (s, match h.value with
          | .waits => .error .wait
          | .lost => .error .failed
          | .word v => .ok v)
        | none =>
          if s.pinnedAny la then (s.dispHold who ctx x.pa, .error .wait)
          else if s.lineHeld (lineOf la) || s.snoopRead la then (s, .error .wait)
          else match s.readWord ctx la with
            | (s, none) => (s, .error .failed)
            | (s, some v) => (s, .ok (BitVec.ofNat 64 v))

/-- Consecutive words; those of pinned ranges are all asked for before the dispatcher waits. -/
def State.dispWords (s : State) (who : Option Nat) (ctx : Nat) (va : Word) :
    Nat → State × Except DispFail (List Word)
  | 0 => (s, .ok [])
  | n + 1 =>
    match s.dispWord who ctx va with
    | (s, .error .failed) => (s, .error .failed)
    | (s, r) => match s.dispWords who ctx (va + 8) n with
      | (s, l) => (s, r.bind fun w => l.map (w :: ·))

/-- `n` elements of two bytes. -/
def State.dispHalves (s : State) (who : Option Nat) (ctx : Nat) (va : Word) :
    Nat → State × Except DispFail (List Nat)
  | 0 => (s, .ok [])
  | n + 1 =>
    match s.dispWord who ctx (va &&& ~~~7#64) with
    | (s, .error .failed) => (s, .error .failed)
    | (s, r) => match s.dispHalves who ctx (va + 2) n with
      | (s, l) => (s, r.bind fun w =>
          l.map (w.toNat / 2 ^ (8 * (va.toNat % 8)) % 2 ^ 16 :: ·))

/-- An atomic of the dispatcher on an 8-byte word: the old value. -/
def State.dispAmo (s : State) (ctx : Nat) (va : Word) (f : Word → Word) :
    State × Except DispFail Word :=
  if va.toNat % 8 ≠ 0 then (s, .error .failed)
  else match s.dispTables ctx va with
  | (s, true) => (s, .error .wait)
  | (s, false) => match s.dispCheck ctx .atomic va with
    | none => (s, .error .failed)
    | some x =>
      let la := localAddr x.pa
      if !s.isLocal x.pa then (s, .ok (Config.remoteWord s.fresh x.pa))
      else if s.lineHeld (lineOf la) || s.snoopWait la then (s, .error .wait)
      else
        let s := s.bringHome la
        if s.lost (sectorOf la) then (s.reportLost ctx la, .error .failed)
        else
          let old := BitVec.ofNat 64 (s.readMem la 8)
          ((s.writeMem ctx la 8 (f old).toNat).mailboxTriggers [(la, 8)], .ok old)

/-! ### Graphs (15 R388–R390) -/

/-- An image as the dispatcher reads it: header address, REENTRANT, node records, successors, and
the device lists of the nodes that are domain gangs. -/
structure GraphImage where
  header : Word
  reentrant : Bool
  nodes : List (List Word)
  edges : List (List Nat)
  dlists : List (List Nat)
  deriving DecidableEq, Repr

/-- Why a launch is not entered: a refusal with its code (15 R373), or a wait. -/
inductive LaunchFail where
  | code (c : Nat)
  | wait
  deriving DecidableEq, Repr

/-- A read that fails is code 7. -/
def DispFail.launch : DispFail → LaunchFail
  | .failed => .code 7
  | .wait => .wait

/-- A gang of these fields fits on no allowed die, even an empty one (15 R373, code 3). -/
def State.neverFits (s : State) (ws : List Word) : Bool :=
  !((recDies ws).any fun d => (recRegions ws).any fun r =>
    (fitIn (fun n => (s.getTile n).placeable) ws d r).isSome)

/-- Codes 1 to 4 of 15 R373. -/
def State.recordCode (s : State) (ws : List Word) (node : Bool) : Option Nat :=
  if recMalformed ws node then some 1
  else if recBackfill ws ∧ recBound ws = 0 then some 2
  else if recKind ws = 1 ∧ s.neverFits ws then some 3
  else if recDomainBad ws then some 4
  else none

/-- The device ids of DLIST, in which 0xFFF is this device (01 R21). -/
def State.readDlist (s : State) (who : Option Nat) (ctx : Nat) (ws : List Word) :
    State × Except DispFail (List Nat) :=
  let (s, r) := s.dispHalves who ctx (recWord ws 8) (recField ws 7 16 16)
  (s, r.map fun l => l.map fun d => if d = 0xFFF then s.device else d)

/-- Code 8 of 15 R373 for a device list. -/
def State.listAbsent (s : State) (ctx : Nat) (l : List Nat) : Bool :=
  l.any fun d => d != s.device &&
    (decide (0xC00 ≤ d) || !s.peers.contains d || s.killedAt.contains (d, ctx))

/-- A node of an image as read: record, successors and device list; or why not. Code 5 comes before
7, and 7 before 8 (15 R373). The device list of a node that is a domain gang is read with its record
(DEDUCED, log 45). -/
def State.readNode (s : State) (who : Option Nat) (ctx : Nat) (nodes edges : Word) (nnodes i : Nat) :
    State × Except LaunchFail (List Word × List Nat × List Nat) :=
  match s.dispWords who ctx (nodes + BitVec.ofNat 64 (128 * i)) 16 with
  | (s, .error e) => (s, .error e.launch)
  | (s, .ok ws) =>
    if (s.recordCode ws true).isSome then (s, .error (.code 5))
    else match s.dispHalves who ctx (edges + BitVec.ofNat 64 (2 * recField ws 9 0 32))
        (recField ws 9 32 16) with
      | (s, .error e) => (s, .error e.launch)
      | (s, .ok succ) =>
        if succ.any fun x => decide (nnodes ≤ x) then (s, .error (.code 5))
        else if !recDomain ws then (s, .ok (ws, succ, []))
        else match s.readDlist who ctx ws with
          | (s, .error e) => (s, .error e.launch)
          | (s, .ok l) =>
            (s, if s.listAbsent ctx l then .error (.code 8) else .ok (ws, succ, l))

/-- Of two reasons the one that counts: a wait, and then the lower code (15 R373). -/
def LaunchFail.first : LaunchFail → LaunchFail → LaunchFail
  | .wait, _ | _, .wait => .wait
  | .code a, .code b => .code (min a b)

/-- All nodes from `i` on. -/
def State.readNodes (s : State) (who : Option Nat) (ctx : Nat) (nodes edges : Word) (nnodes : Nat) :
    Nat → Nat → State × Except LaunchFail (List (List Word × List Nat × List Nat))
  | 0, _ => (s, .ok [])
  | n + 1, i =>
    match s.readNode who ctx nodes edges nnodes i with
    | (s, r) => match s.readNodes who ctx nodes edges nnodes n (i + 1) with
      | (s, l) => (s, match r, l with
        | .ok x, .ok l => .ok (x :: l)
        | .error e, .ok _ | .ok _, .error e => .error e
        | .error e, .error f => .error (e.first f))

/-- The image that a header describes (15 R388, R389). -/
def State.readImage (s : State) (who : Option Nat) (ctx : Nat) (header : Word) :
    State × Except LaunchFail GraphImage :=
  match s.dispWords who ctx header 16 with
  | (s, .error e) => (s, .error e.launch)
  | (s, .ok h) =>
    let w0 := recWord h 0
    let nnodes := recField h 0 0 17
    if nnodes = 0 ∨ 65536 < nnodes ∨ w0 &&& ~~~0x10001FFFF#64 ≠ 0 ∨ recWord h 5 &&& ~~~3#64 ≠ 0 ∨
        (h.drop 6).any (· != 0) ∨ recField h 2 0 7 ≠ 0 ∨ recField h 3 0 1 ≠ 0 then
      (s, .error (.code 5))
    else
      let (s, r) := s.readNodes who ctx (recWord h 2) (recWord h 3) nnodes nnodes 0
      (s, r.map fun l => ⟨header, bitAt w0 32, l.map (·.1), l.map (·.2.1), l.map (·.2.2)⟩)

/-- REFS of a header changed (15 R389). -/
def State.addRefs (s : State) (ctx : Nat) (header : Word) (v : Word) : State × Except DispFail Word :=
  s.dispAmo ctx (header + 32) (· + v)

/-- The image of a handle pinned and read; it is released again where it is refused (15 R389). -/
def State.pinImage (s : State) (who : Option Nat) (ctx : Nat) (handle : Word) :
    State × Except LaunchFail GraphImage :=
  match s.dispWord who ctx handle with
  | (s, .error e) => (s, .error e.launch)
  | (s, .ok header) =>
    match s.addRefs ctx header 1 with
    | (s, .error e) => (s, .error e.launch)
    | (s, .ok _) =>
      match s.readImage who ctx header with
      | (s, .ok g) => (s, .ok g)
      | (s, .error e) => ((s.addRefs ctx header (BitVec.allOnes 64)).1, .error e)

/-- The image of a handle read without being pinned, for the check of a record that is bound to a
mailbox (15 R391). -/
def State.checkImage (s : State) (who : Option Nat) (ctx : Nat) (handle : Word) :
    State × Except LaunchFail GraphImage :=
  match s.dispWord who ctx handle with
  | (s, .error e) => (s, .error e.launch)
  | (s, .ok header) => s.readImage who ctx header

/-- An instance retires (15 R389); none while an access for it waits. -/
def State.retireImage (s : State) (ctx : Nat) (header : Word) : Option State :=
  match s.addRefs ctx header (BitVec.allOnes 64) with
  | (_, .error .wait) => none
  | (s, .error .failed) => some s
  | (s, .ok old) =>
    if old ≠ 1 then some s
    else match s.dispAmo ctx (header + 40) (fun w => if bitAt w 0 then w ||| 2 else w) with
      | (_, .error .wait) => none
      | (s, .error .failed) | (s, .ok _) => some s

/-- Instances of a handle of a context, oldest first. -/
def State.instancesOf (s : State) (ctx : Nat) (handle : Word) : List GraphInst :=
  s.graphs.filter fun g => g.ctx == ctx && g.handle == handle

/-- A new launch. -/
def Launch.new (lid ctx prio : Nat) (words : List Word) (line mailbox : Option Nat)
    (node : Option (Nat × Nat)) (x14 gtc : Nat) : Launch where
  lid := lid
  ctx := ctx
  words := words
  prio := prio
  line := line
  mailbox := mailbox
  node := node
  state := .queued
  started := 0
  ended := 0
  since := gtc
  stalled := false
  x14 := x14

/-- This device coordinates the gangs of a launch over itself and the devices of a list (15
R387). -/
def State.coordinate (s : State) (lid : Nat) (dlist : List Nat) : State :=
  let d : DomainGang := {
    lid := lid, idx := 0, members := (s.device :: dlist).eraseDups, held := []
    started := false, ended := [], wanted := false, holdSince := 0, coordinator := true, go := false }
  { s with domainGangs := s.domainGangs ++ [d] }.post .domainHold { EventArg.none with n₁ := lid }

/-- Node `i` of an instance is launched, under a number that no LID has (15 R390). Its priority does
not exceed that of the graph's launch (log 21). -/
def State.launchNode (s : State) (g : GraphInst) (i : Nat) : State :=
  let ws := g.nodes.getD i []
  let prio := min (recPrio ws) (match s.launch g.lid with
    | some l => l.prio
    | none => 7)
  let lid := 2 ^ 32 + s.fresh
  let l := Launch.new lid g.ctx prio ws none none (some (g.lid, i)) g.number s.gtc
  let s := { s with fresh := s.fresh + 1, launches := s.launches ++ [l] }
  if recDomain ws then s.coordinate lid (g.dlists.getD i []) else s

/-- An instance starts: it takes its number, and nodes without predecessors are launched
(15 R390). -/
def State.startInstance (s : State) (g : GraphInst) (im : GraphImage) : State :=
  let key (p : Nat × Word × Nat) : Bool := p.1 == g.ctx && p.2.1 == g.handle
  let number := match s.handles.find? key with
    | some p => p.2.2
    | none => 1
  let n := im.nodes.length
  let counts : List Nat := (List.range n).map fun i =>
    im.edges.foldl (fun k succ => k + (succ.filter (· == i)).length) 0
  let g := { g with
    number := number, header := im.header, reentrant := im.reentrant, nodes := im.nodes
    edges := im.edges, dlists := im.dlists, counts := counts, done := [], started := true }
  let s := { s with
    handles := (g.ctx, g.handle, (number + 1) % 2 ^ 32) :: s.handles.filter (!key ·)
    graphs := s.graphs.map fun x => if x.lid = g.lid then g else x }
  (List.range n).foldl (fun s i => if counts.getD i 0 = 0 then s.launchNode g i else s) s

/-- A graph launch enters with the image that it has pinned (15 R389, R390). It waits while an
earlier instance of the handle has not completed and its image is not reentrant. -/
def State.enterGraph (s : State) (lid ctx : Nat) (handle : Word) (im : GraphImage) : State :=
  let g : GraphInst := {
    lid := lid, ctx := ctx, handle := handle, number := 0, header := 0, reentrant := false
    nodes := [], edges := [], dlists := [], counts := [], done := [], started := false }
  let busy := !(s.instancesOf ctx handle).isEmpty
  let s := { s with graphs := s.graphs ++ [g] }
  if busy && !im.reentrant then (s.addRefs ctx im.header (BitVec.allOnes 64)).1
  else s.startInstance g im

/-! ### Entering a launch (15 R373, R375) -/

/-- Launches that wait in the ready pool of a die: grids with a gang to place, and graphs that have
not completed. -/
def State.poolCount (s : State) (die : Nat) : Nat :=
  (s.launches.filter fun l => (l.state == .queued || l.state == .running) &&
    (recDies l.words).contains die && (recKind l.words != 1 ||
      decide (l.started < recGangs l.words) ||
        s.gangs.any fun g => g.lid == l.lid && g.state == .requeued)).length

/-- Codes 7 to 9 of 15 R373, with the device list. -/
def State.listCode (s : State) (who : Option Nat) (ctx : Nat) (ws : List Word) :
    State × Except LaunchFail (List Nat) :=
  let r : State × Except LaunchFail (List Nat) :=
    if !recDomain ws then (s, .ok [])
    else match s.readDlist who ctx ws with
      | (s, .error e) => (s, .error e.launch)
      | (s, .ok l) => if s.listAbsent ctx l then (s, .error (.code 8)) else (s, .ok l)
  match r with
  | (s, .error e) => (s, .error e)
  | (s, .ok l) =>
    if (recDies ws).any fun d => decide (1024 ≤ s.poolCount d) then (s, .error (.code 9))
    else (s, .ok l)

/-- What a launch is accepted with: its image, where it is a graph, and its device list. -/
structure Accepted where
  image : Option GraphImage
  dlist : List Nat
  deriving DecidableEq, Repr

/-- The codes of 15 R373 in their order. A graph's image is pinned where `pin` says so; that of a
killed context, which is only examined for code 5, is not. -/
def State.accepts (s : State) (who : Option Nat) (ctx : Nat) (ws : List Word) (pin : Bool) :
    State × Except LaunchFail Accepted :=
  let dead := s.killed.contains ctx
  match s.recordCode ws false with
  | some c => (s, .error (.code c))
  | none =>
    if ctx = 0 then (s, .error (.code 6))
    else
      let (s, r) : State × Except LaunchFail (Option GraphImage) :=
        if recKind ws ≠ 2 then (s, .ok none)
        else
          let (s, r) := if pin && !dead then s.pinImage who ctx (recWord ws 6)
            else s.checkImage who ctx (recWord ws 6)
          (s, r.map some)
      match r with
      | .error .wait => (s, .error .wait)
      | .error (.code c) => (s, .error (.code (if dead && c != 5 then 6 else c)))
      | .ok im =>
        if dead then (s, .error (.code 6))
        else match s.listCode who ctx ws with
          | (s, .ok l) => (s, .ok ⟨im, l⟩)
          | (s, .error e) =>
            (match im with
             | some im => if pin then (s.addRefs ctx im.header (BitVec.allOnes 64)).1 else s
             | none => s, .error e)

/-- The next LID (15 R375). -/
def nextLidAfter (n : Nat) : Nat := if n = 2 ^ 32 - 1 then 1 else n + 1

/-- The state of a parsed launch, where it still is the latest that its line has triggered. -/
def State.showParsed (s : State) (line : Option Nat) (lid state code : Nat) : State :=
  match line with
  | none => s
  | some n =>
    if (slice (s.lineStat n) 0 32).toNat = lid then
      { s with lstat := putKey s.lstat n (lstatWord state code lid) } else s

/-- Parsing begins: the launch takes the next LID, and its line shows PARSING (15 R375). -/
def State.beginParse (s : State) (line : Option Nat) : State × Nat :=
  let lid := s.nextLid
  let s := { s with nextLid := nextLidAfter lid }
  (match line with
   | some n => { s with lstat := putKey s.lstat n (lstatWord 1 0 lid) }
   | none => s, lid)

/-- Parsing ends: the launch is refused with a code or entered, unless a read waits; then nothing of
it has happened but the request of words that are held at compacts. -/
def State.endParse (s : State) (who : Option Nat) (lid ctx prioMax : Nat) (ws : List Word)
    (line mailbox : Option Nat) : State × Except LaunchFail Nat :=
  match s.accepts who ctx ws true with
  | (t, .error .wait) => (s.waitFor t, .error .wait)
  | (s, .error (.code c)) => (({ s with dispReads := s.dispReads.filter (·.lid != lid) }.showParsed line
      lid 5 c), .error (.code c))
  | (s, .ok x) =>
    let l := Launch.new lid ctx (min (recPrio ws) prioMax) ws line mailbox none 0 s.gtc
    let s := { s with
      dispReads := s.dispReads.filter (·.lid != lid)
      launches := s.launches ++ [l] }.showParsed line lid 2 0
    match x.image with
    | some im => ((s.enterGraph lid ctx (recWord ws 6) im).kick, .ok lid)
    | none => (if recDomain ws then s.coordinate lid x.dlist else s.kick, .ok lid)

/-- A launch is parsed for the instruction at issue: SPAWN. -/
def State.parse (s : State) (ctx prioMax : Nat) (ws : List Word) :
    State × Except LaunchFail Nat :=
  let (t, lid) := s.beginParse none
  match t.endParse none lid ctx prioMax ws none none with
  | (t, .error .wait) => (s.waitFor t, .error .wait)
  | r => r

/-! ### The start of a gang (15 R376) -/

/-- The tile as a hart of a gang starts on it. The start is an acquire: no copy that the tile does
not own stays (07 R157, R158). -/
def State.bootTile (s : State) (n : Nat) (l : Launch) (g : Gang) (group hart : Nat) : Tile :=
  let t := s.getTile n
  let r := Tile.reset n
  let c := s.blockWord l.ctx
  let x (i : Nat) : Word :=
    if i = 10 then recWord l.words 3
    else if i = 11 then BitVec.ofNat 64 g.idx
    else if i = 12 then BitVec.ofNat 64 (group * 256 + hart)
    else if i = 13 then g.domains
    else if i = 14 then BitVec.ofNat 64 l.x14
    else 0
  let base := s.fresh + 4096 * (n + 1)
  let cr := { CtrlRegs.reset with
    status := 0
    ctxid := BitVec.ofNat 64 l.ctx
    trbase := c 1 &&& crMask 0x21
    etbase := c 2 &&& crMask 0x23
    netctx := c 3 &&& crMask 0x1B
    stvec := c 4 &&& crMask 0x2B
    ienable := c 5 &&& crMask 0x25
    tdeleg := c 6 &&& crMask 0x45
    fepc := t.cr.fepc, ftcause := t.cr.ftcause, ftval := t.cr.ftval, ftvec := t.cr.ftvec
    fscratch := t.cr.fscratch, segmode := t.cr.segmode &&& 0xFF#64 }
  { r with
    eh := ⟨⟨Vector.ofFn fun i => x i.val, [], []⟩, recWord l.words 2, 0, 0, none⟩
    acSeq := { r.acSeq with core := { t.acSeq.core with wait := 5 }, store := t.acSeq.store }
    stSeq := { r.stSeq with core := { t.stSeq.core with wait := 5 }, store := t.stSeq.store }
    t := Vector.ofFn fun k => Vector.ofFn fun j => Config.freeVec (base + 64 * k.val + j.val)
    acc := Vector.ofFn fun a => Vector.ofFn fun i => Vector.ofFn fun j =>
      slice (Config.freeVec (base + 512 + 256 * a.val + 4 * i.val + j.val / 16)) (32 * (j.val % 16)) 32
    run := .running
    cr := cr
    unsound := t.unsound
    sram := t.sram, empty := t.empty, feWaits := t.feWaits.filter (·.task.isNone)
    cache := t.invalidate.cache, tlb := t.tlb
    inj := t.inj
    member := t.member
    doorbell := t.doorbell, placeable := t.placeable, physical := t.physical
    place := some ⟨l.lid, g.idx, group, hart, s.device * 2048 + n, g.domains, recJoint l.words⟩ }

/-- The groups of a gang's tiles. -/
def groupsOf (size : Nat) : Nat → List Nat → List (List Nat)
  | 0, _ => []
  | n + 1, l => l.take size :: groupsOf size n (l.drop size)

/-- A trigger that a mailbox owes is launched once its earlier launch has started (15 R391). -/
def State.oweMailbox (s : State) : State :=
  match s.mailboxes.find? fun m => decide (0 < m.owed) && m.busy.isNone with
  | none => s
  | some m =>
    ({ s with mailboxes := s.mailboxes.map fun (x : Mailbox) =>
        if x.slot = m.slot then { x with owed := x.owed - 1 } else x }).post .launchTrigger
      { EventArg.none with n₁ := 1, n₂ := m.slot }

/-- The launch of a mailbox has started, or will not start, and the next trigger that it owes is
launched (15 R391). -/
def State.freeMailbox (s : State) (l : Launch) : State :=
  match l.mailbox with
  | some slot =>
    ({ s with mailboxes := s.mailboxes.map fun (m : Mailbox) =>
        if m.slot = slot ∧ m.busy = some l.lid then { m with busy := none } else m }).oweMailbox
  | none => s

/-- Every hart of a gang starts (15 R376). -/
def State.startGang (s : State) (l : Launch) (g : Gang) : State :=
  let groups := groupsOf (recSize l.words) (recGroups l.words) g.tiles
  let s := groups.zipIdx.foldl (fun s p => p.1.zipIdx.foldl (fun s q =>
    let s := s.setTile q.1 (s.bootTile q.1 l g p.2 q.2)
    s.convert q.1 (BitVec.ofNat 8 (recField l.words 0 32 8))) s) s
  let s := { s with fresh := s.fresh + 4096 * 2049 }
  let s := s.modGang l.lid g.idx fun g => { g with state := .running, startNs := s.gtc }
  let s := s.modLaunch l.lid fun l => { l with since := s.gtc, stalled := false }
  let s := if l.state = .queued then s.setLaunchState l.lid .running else s
  let s := match l.node with
    | some (gl, _) => (match s.launch gl with
      | some x =>
        let s : State := if x.state = LaunchState.queued then s.setLaunchState gl .running else s
        s.freeMailbox x
      | none => s)
    | none => s
  s.freeMailbox l

/-- The gang's tiles are ready: none is gated, nor on a die without power (16 R421, 17 R446). -/
def State.tilesReady (s : State) (g : Gang) : Bool :=
  g.tiles.all fun n => (s.getTile n).run == .halted && (s.getTile n).ctx == 0 && s.poweredTile n

/-- A wake of tile `n`: a store to its DOORBELL, or a placement (16 R420, R421). It is latched while
the tile prepares its gating or is gated. -/
def State.wake (s : State) (n : Nat) : State :=
  let t := s.getTile n
  if t.run = .gated ∨ t.doorbell.pending then
    let s := s.modTile n fun t => { t with doorbell := { t.doorbell with rung := true } }
    if t.run = .gated ∧ !s.choice.defer then s.post .tilePowerUp { EventArg.none with tile := n }
    else s
  else s

/-- A placement wakes the gated tiles it takes (16 R420, R421). -/
def State.wakeTiles (s : State) (ts : List Nat) : State := ts.foldl (fun s n => s.wake n) s

/-- Gangs that were placed on gated tiles start once these have halted. -/
def State.startReady (s : State) : State :=
  s.gangs.foldl (fun s g =>
    match s.launch g.lid with
    | some l =>
      if g.state = .holding ∧ !recDomain l.words ∧ s.tilesReady g then s.startGang l g else s
    | none => s) s

/-! ### Placement (15 R381–R385) -/

/-- Counts of a priority with no waiting gang in the main queue of a die return to 0 (15 R382). -/
def State.clearCounts (s : State) : State :=
  { s with placed := s.placed.filter fun p =>
      (s.waiting p.die false).any fun w => w.launch.prio == p.prio }

/-- A gang takes a placement: it starts, holds, or is loaded. -/
def State.placeGang (s : State) (w : Waiting) (die region : Nat) (groups : List (List Nat))
    (mask : BitVec 64) : State :=
  let l := w.launch
  let tiles := groups.flatten
  let stamp := s.stamp
  let s := { s with
    stamp := stamp + 1
    heads := vmap (fun (hs : List HeadState) =>
      hs.filter fun h => !(h.lid == l.lid && h.idx == w.idx)) s.heads
    placed :=
      let n := s.countOf die l.prio l.ctx + 1
      ⟨die, l.prio, l.ctx, n⟩ :: s.placed.filter fun p =>
        !(p.die == die && p.prio == l.prio && p.ctx == l.ctx) }
  let s := s.wakeTiles tiles
  if w.saved then
    let s := (s.modGang l.lid w.idx fun g => { g with
      state := .stopping, die := die, region := region, tiles := tiles, domains := mask
      front := false, stamp := stamp, startNs := s.gtc }).clearCounts
    s.post .gangResume { EventArg.none with n₁ := l.lid, n₂ := w.idx }
  else
    let g : Gang := {
      lid := l.lid, idx := w.idx, state := .holding, die := die, region := region, tiles := tiles
      gone := [], domains := mask, startNs := s.gtc, stamp := stamp, saved := [], stopped := 0
      front := false, hold := false, kept := 0, doms := [] }
    let s := { s with gangs := s.gangs ++ [g] }
    let s := (s.modLaunch l.lid fun l => { l with started := l.started + 1 }).clearCounts
    if recDomain l.words then
      let s := { s with domainGangs := s.domainGangs.map fun (d : DomainGang) =>
        if d.lid = l.lid ∧ d.idx = w.idx then { d with holdSince := s.gtc } else d }
      s.post .domainHeld { EventArg.none with n₁ := l.lid, n₂ := w.idx, n₃ := s.device }
    else s.startReady

/-- The blocked head of a die stands first in its list; the one before it keeps its age. -/
def State.blockHead (s : State) (die : Nat) (w : Waiting) : State :=
  let hs := vget s.heads die []
  let same (h : HeadState) : Bool := h.lid == w.launch.lid && h.idx == w.idx
  match hs with
  | h :: _ => if same h then s
    else
      let mine := match hs.find? same with
        | some x => { x with since := s.gtc }
        | none => ⟨w.launch.lid, w.idx, 0, s.gtc, none⟩
      { s with heads := vset s.heads die (mine :: hs.filter (!same ·)) }
  | [] => { s with heads := vset s.heads die [⟨w.launch.lid, w.idx, 0, s.gtc, none⟩] }

/-- The target of the blocked head of a die and its S (15 R383, R385). -/
def State.headTarget (s : State) (die : Nat) (w : Waiting) : Nat × Option Nat :=
  match vget s.heads die [] with
  | h :: _ => h.fixed.getD (s.target w die)
  | [] => s.target w die

/-- One placement on a die, where one is possible: of the head, or of a back-fill gang
(15 R382, R384). -/
def State.dispatch (s : State) (die : Nat) : State × Bool :=
  let head := s.first die (s.waiting die false)
  let fill (s : State) (ok : Waiting → List Nat → Bool) : State × Bool :=
    let q := sortBy (fun a b => s.comesBefore die a b) (s.waiting die true)
    match q.findSome? fun w => (s.fits w die (ok w)).map fun p => (w, p) with
    | some (w, r, gs, mask) => (s.placeGang w die r gs mask, true)
    | none => (s, false)
  match head with
  | none => fill s fun _ _ => true
  | some w =>
    match s.fits w die fun _ => true with
    | some (r, gs, mask) => (s.placeGang w die r gs mask, true)
    | none =>
      let s := s.blockHead die w
      fill s (s.backfillOk w (s.ageOf die w.launch.lid w.idx) (s.headTarget die w) die)

/-! ### The end of gangs and grids (15 R379, R380) -/

/-- Node `i` of an instance has completed (15 R390). -/
def State.nodeDone (s : State) (glid i : Nat) : State :=
  match s.graphs.find? (·.lid == glid) with
  | none => s
  | some g =>
    let succ := g.edges.getD i []
    let step (p : State × GraphInst) (j : Nat) : State × GraphInst :=
      let (s, g) := p
      let k := g.counts.getD j 0 - 1
      let g := { g with counts := setNth g.counts j k }
      (if k = 0 then s.launchNode g j else s, g)
    let (s, g) := succ.foldl step (s, { g with done := insertNat g.done i })
    { s with graphs := s.graphs.map fun x => if x.lid = glid then g else x }

/-- The next instance of a handle starts, or is refused (15 R390, R397); it waits where its image
cannot be read yet. -/
def State.nextInstance (s : State) (ctx : Nat) (handle : Word) : Nat → State
  | 0 => s
  | n + 1 =>
    match s.instancesOf ctx handle with
    | [] => s
    | g :: _ =>
      let read (s : State) : State := { s with dispReads := s.dispReads.filter (·.lid != g.lid) }
      if g.started then s
      else match s.pinImage (some g.lid) ctx handle with
        | (t, .error .wait) => s.waitFor t
        | (s, .ok im) => (read s).startInstance g im
        | (s, .error (.code c)) =>
          let s := { read s with graphs := s.graphs.filter (·.lid != g.lid) }
          let s := match s.launch g.lid with
            | some l =>
              let l := { l with state := .refused }
              ((s.modLaunch g.lid fun _ => l).showState l c).freeMailbox l
            | none => s
          s.nextInstance ctx handle n

/-- A launch completes: its CWORD, its LSTAT, and its instance (15 R380, R390). The increment waits
where its line is held up. -/
def State.completeOne (s : State) (lid : Nat) : State :=
  match s.launch lid with
  | none => s
  | some l =>
    let cword := recWord l.words 4
    let lid' := match l.node with
      | some (g, _) => g
      | none => lid
    let r : State × Except DispFail Word :=
      if cword = 0 then (s, .ok 0) else s.dispAmo l.ctx cword (· + 1)
    match r with
    | (_, .error .wait) => s
    | (s, e) =>
      let s := match e with
        | .error _ => s.report l.ctx 2 cword (BitVec.ofNat 64 (lid' % 2 ^ 32))
        | .ok _ => s
      let s := s.setLaunchState lid .done
      match l.node with
      | some (g, i) => s.nodeDone g i
      | none => s

/-- A launch is queued or runs. -/
def State.liveLaunch (s : State) (lid : Nat) : Bool :=
  s.launches.any fun l => l.lid == lid && (l.state == .queued || l.state == .running)

/-- Instances whose launch has completed retire, and the next ones of their handles start
(15 R389, R390). -/
def State.retireGraphs (s : State) : State :=
  let s := (s.graphs.filter fun g => g.started && !s.liveLaunch g.lid).foldl (fun s g =>
    match s.retireImage g.ctx g.header with
    | none => s
    | some s => { s with graphs := s.graphs.filter (·.lid != g.lid) }) s
  (s.graphs.filter (!·.started)).foldl (fun s g =>
    s.nextInstance g.ctx g.handle s.graphs.length) s

/-- Every launch that has nothing left to run completes: grids, then the graphs whose nodes have
all completed. -/
def State.completeReady (s : State) : Nat → State
  | 0 => s
  | n + 1 =>
    let s := s.retireGraphs
    let due (l : Launch) : Bool := l.state == .running &&
      (if recKind l.words = 1 then
         l.ended == recGangs l.words && !(s.domainGangs.any fun d => d.lid == l.lid)
       else match s.graphs.find? (·.lid == l.lid) with
         | some g => g.started && g.done.length == g.nodes.length
         | none => false)
    match s.launches.find? due with
    | none => s
    | some l =>
      let s' := s.completeOne l.lid
      if s'.liveLaunch l.lid then s' else s'.completeReady n

/-- Launches that are over are forgotten. -/
def State.forgetLaunches (s : State) : State :=
  { s with launches := s.launches.filter fun l => l.state == .queued || l.state == .running }

/-- A tile that a gang leaves: halted at FIRM with CTXID 0 (16 R410), its cache kept. -/
def Tile.vacate (t : Tile) (n : Nat) : Tile :=
  let r := Tile.reset n
  { r with
    eh := { t.eh with wait := 0 }
    v := t.v, m := t.m, t := t.t, acc := t.acc, rs := t.rs, cs := t.cs, ks := t.ks
    acSeq := { t.acSeq with running := false, copying := none }
    stSeq := { t.stSeq with running := false, copying := none }
    cr := { CtrlRegs.reset with
      fepc := t.cr.fepc, ftcause := t.cr.ftcause, ftval := t.cr.ftval, ftvec := t.cr.ftvec
      fscratch := t.cr.fscratch, tdeleg := t.cr.tdeleg, segmode := t.cr.segmode }
    unsound := t.unsound
    sram := t.sram, empty := t.empty, feWaits := t.feWaits.filter (·.task.isNone)
    cache := t.cache, tlb := t.tlb
    inj := t.inj.map fun (e : InjEntry) => { e with orphan := true }
    member := t.member
    doorbell := t.doorbell, placeable := t.placeable, physical := t.physical }

/-- A tile that no gang holds any more: dirty sectors are written back and every segment turns to
cache use (15 R379, 06 R121). -/
def State.clearTile (s : State) (n : Nat) : State :=
  let s := ((s.getTile n).cache.filter fun l => l.dirty0 || l.dirty1).foldl
    (fun s l => s.evictLine n l.addr) s
  (s.convert n (s.pinnedSegs n)).modTile n (·.vacate n)

/-- The domain is one of those granted to a gang. -/
def Gang.holds (g : Gang) (d : Domain) : Bool := d.die == g.die && bitAt g.domains d.num

/-- The barrier domains of a gang are free (15 R379). -/
def State.freeGangDomains (s : State) (g : Gang) : State :=
  { s with domains := s.domains.filter (!g.holds ·) }

/-- The last hart has ended its part: the gang ends (15 R379, R380, R387). -/
def State.endGang (s : State) (g : Gang) : State :=
  let s := g.tiles.foldl (fun s n => s.clearTile n) s
  let s := { s.freeGangDomains g with
    gangs := s.gangs.filter fun x => !(x.lid == g.lid && x.idx == g.idx) }
  let s := s.modLaunch g.lid fun l => { l with ended := l.ended + 1, since := s.gtc, stalled := false }
  let dom := s.domainGangs.find? fun d => d.lid == g.lid && d.idx == g.idx
  let s := match dom with
    | some d => s.post .domainReleased
        { EventArg.none with n₁ := d.lid, n₂ := d.idx, n₃ := s.device, flag := true }
    | none => s
  ((s.completeReady (s.launches.length + 1)).forgetLaunches).kick

/-- Nothing of the hart is outstanding, and both sequencers are stopped (15 R379). -/
def Tile.allDone (t : Tile) : Bool :=
  let stopped (u : UnitId) : Bool := !(t.seq u).running && (t.seq u).copying.isNone && t.quiet u
  t.reqs.isEmpty && t.cmds.isEmpty && t.remote.isEmpty && stopped .as && stopped .ss

/-- GDONE (15 R379). -/
def execGdone (st : StallCode) (s : State) : Host.Outcome State Fault Refusal :=
  let q : Issue := { word := encode (.gdone st), stall := st }
  .next (s.issue q fun s =>
    if s.inTask then s.raise ⟨.gangerr, gangerrTval q.word 15, none⟩
    else if !s.tile.allDone then s.stay 0
    else
      let s := (s.finish q).onTile fun t => { t with
        run := .halted, inbox := [], tasks := TaskTable.empty
        channels := vmap (fun c => { c with entries := [], isOpen := false }) t.channels }
      match s.tile.place with
      | none => s
      | some p =>
        let s := s.modGang p.lid p.gang fun g => { g with gone := insertNat g.gone s.cur }
        match s.gang p.lid p.gang with
        | none => s
        | some g => if g.tiles.all (g.gone.contains ·) then s.endGang g else s)

/-! ### Steps of the dispatchers -/

/-- GANG_PLACE: the dispatcher of die `n₁` places a gang, if one may be placed (15 R381–R385). -/
def execGangPlace (s : State) : Host.Outcome State Fault Refusal :=
  let die := s.arg.n₁ % 4
  let s := ((s.completeReady (s.launches.length + 1)).forgetLaunches).startReady
  let (s, more) := s.dispatch die
  .next (if more && !s.choice.defer then s.post .gangPlace { EventArg.none with n₁ := die } else s)

/-- HEAD_AGE_TICK: the blocked head of die `n₁` ages a step for each 100 µs (15 R385). At AGEMAX its
target and S are fixed (15 R383). -/
def execHeadAgeTick (s : State) : Host.Outcome State Fault Refusal :=
  let die := s.arg.n₁ % 4
  .next (match vget s.heads die [] with
    | [] => s
    | h :: rest =>
      let n := (s.gtc - h.since) / 100000
      let age := min 16 (h.age + n)
      match s.first die (s.waiting die false) with
      | none => s
      | some w =>
        if w.launch.lid ≠ h.lid ∨ w.idx ≠ h.idx then s
        else
          let fixed := if age = 16 then h.fixed.or (some (s.target w die)) else h.fixed
          let h' := { h with age := age, since := h.since + 100000 * n, fixed := fixed }
          { s with heads := vset s.heads die (h' :: rest) })

/-- RUNB_END_PASS: a declared end has passed on die `n₁`, and its dispatcher looks again at its
target (15 R383). -/
def execRunbEndPass (s : State) : Host.Outcome State Fault Refusal :=
  let die := s.arg.n₁ % 4
  .next (if s.gangs.any fun g => g.die == die && (match s.declaredEnd g with
      | some e => decide (e ≤ s.gtc)
      | none => false) then (s.dispatch die).1 else s)

/-- GRID_STALL: grid `n₁` has stalled for GRIDWAIT: GRIDSTALL is raised, and with ROTATE its oldest
gang is pre-empted (15 R386, R397). -/
def execGridStall (s : State) : Host.Outcome State Fault Refusal :=
  .next (match s.launch s.arg.n₁ with
    | none => s
    | some l =>
      let resident := s.gangs.filter fun g => g.lid == l.lid && g.state == .running
      let left := decide (l.started < recGangs l.words) ||
        s.gangs.any fun g => g.lid == l.lid && g.state == .requeued
      match resident with
      | [] => s
      | g :: rest =>
        if !left || l.stalled || decide (s.gtc < l.since + recGridwait l.words) then s
        else
          let old := rest.foldl (fun a b => if b.stamp < a.stamp then b else a) g
          let launch (n : Nat) : Nat := match (s.getTile n).place with
            | some p => p.launch
            | none => 0
          let s := match old.tiles with
            | [] => s
            | n :: ns =>
              let low := ns.foldl (fun a b => if launch b < launch a then b else a) n
              s.modTile low fun t => { t with
                cr := { t.cr with ipend := setSlice t.cr.ipend 7 1 1#1 } }
          let s := s.modLaunch l.lid fun l => { l with stalled := true }
          if recRotate l.words && !recDomain l.words then
            s.post .preemptRequest
              { EventArg.none with n₁ := l.lid, n₂ := old.idx, flag := true }
          else s)

/-- The parsing of a launch goes on: it ends, or stays in the list of those that are parsed. Where a
mailbox's launch is refused, the next trigger that it owes is launched (15 R391). -/
def State.parseOn (s : State) (p : Parsing) : State :=
  let free (s : State) : State := match p.mailbox with
    | some slot => ({ s with mailboxes := s.mailboxes.map fun (m : Mailbox) =>
        if m.slot = slot ∧ m.busy = some p.lid then { m with busy := none } else m }).oweMailbox
    | none => s
  let rest := s.parsing.filter (·.lid != p.lid)
  match { s with parsing := rest }.endParse (some p.lid) p.lid p.ctx p.prio p.words p.line p.mailbox with
  | (s, .ok _) => s
  | (s, .error (.code _)) => free s
  | (s, .error .wait) => { s with parsing := rest ++ [p] }

/-- LAUNCH_TRIGGER: window line `n₂` has been triggered, or, with `n₁` = 1, the mailbox of slot `n₂`
(15 R374, R391). With `defer`, or while a read of the dispatcher waits, the launch is PARSING until,
with `n₁` = 2, the parsing of LID `n₂` ends (15 R375). -/
def execLaunchTrigger (s : State) : Host.Outcome State Fault Refusal :=
  let a := s.arg
  let fire (s : State) (m : Mailbox) : State :=
    let (s, lid) := s.beginParse none
    { s with mailboxes := s.mailboxes.map fun (x : Mailbox) =>
        if x.slot = m.slot then { x with busy := some lid } else x }.parseOn
      ⟨lid, m.ctx, recPrio m.words, none, some m.slot, setNth m.words 3 m.va⟩
  .next (if a.n₁ = 1 then
      (match s.mailboxes.find? (·.slot == a.n₂) with
       | none => s
       | some m =>
         if m.busy.isSome then { s with mailboxes := s.mailboxes.map fun x =>
           if x.slot = m.slot then { x with owed := min 65535 (x.owed + 1) } else x }
         else fire s m)
    else if a.n₁ = 2 then
      (match s.parsing.find? (·.lid == a.n₂) with
       | none => s
       | some p => s.parseOn p)
    else
      let line := a.n₂ % 4096
      let base := 0x20000000000 + 128 * line
      let ws := (List.range 16).map fun k => BitVec.ofNat 64 (readLE s.mem.read (base + 8 * k) 8)
      let b := lookupD s.bindings line 0
      let ctx := if bitAt b 63 then (slice b 0 12).toNat else 0
      let prio := (slice b 16 3).toNat
      let (s, lid) := s.beginParse (some line)
      let p : Parsing := ⟨lid, ctx, prio, some line, none, ws⟩
      if s.choice.defer then { s with parsing := s.parsing ++ [p] } else s.parseOn p)

/-! ### Domain gangs (15 R387) -/

def State.modDomain (s : State) (lid idx : Nat) (f : DomainGang → DomainGang) : State :=
  { s with domainGangs := s.domainGangs.map fun d => if d.lid = lid ∧ d.idx = idx then f d else d }

def State.domainGang (s : State) (lid idx : Nat) : Option DomainGang :=
  s.domainGangs.find? fun d => d.lid == lid && d.idx == idx

/-- Control packets go from the coordinator to every other member (15 R387, 14 R361). -/
def State.tellMembers (s : State) (d : DomainGang) : State :=
  let tenant := match s.launch d.lid with
    | some l => (slice (s.blockWord l.ctx 3) 0 6).toNat
    | none => 0
  s.sendOrdered .ctl tenant d.members

/-- A placement that is held without a START is released; the gang returns to its head position. -/
def State.dropHold (s : State) (lid idx : Nat) : State :=
  match s.gang lid idx with
  | none => s
  | some g =>
    if g.state ≠ .holding then s
    else
      let s := { s with gangs := s.gangs.filter fun x => !(x.lid == lid && x.idx == idx) }
      s.modLaunch lid fun l => { l with started := l.started - 1 }

/-- DOMAIN_HOLD: this device receives HOLD for gang `n₂` of launch `n₁` that it coordinates; with
`flag` from the coordinator `n₃`, with the record in `bytes` and the context `w₁`. -/
def execDomainHold (s : State) : Host.Outcome State Fault Refusal :=
  let a := s.arg
  .next (if a.flag then
      let word (k : Nat) : Word := BitVec.ofNat 64 (readLE (fun i => a.bytes.getD i 0) (8 * k) 8)
      let ws := (List.range 16).map word
      let ctx := (slice a.w₁ 0 12).toNat
      let lid := 2 ^ 32 + s.fresh
      let l := { Launch.new lid ctx (recPrio ws) ws none none none 0 s.gtc with started := a.n₂ }
      let d : DomainGang := {
        lid := lid, idx := a.n₂, members := [a.n₃, s.device], held := [], started := false
        ended := [], wanted := true, holdSince := 0, coordinator := false, go := false }
      if recKind ws ≠ 1 ∨ (s.recordCode ws false).isSome ∨ ctx = 0 ∨ s.killed.contains ctx then s
      else
        ({ s with
          fresh := s.fresh + 1, launches := s.launches ++ [l]
          domainGangs := s.domainGangs ++ [d] }).kick
    else match s.domainGang a.n₁ a.n₂ with
      | none => s
      | some d =>
        if d.started then s
        else ((s.tellMembers d).modDomain a.n₁ a.n₂ fun d => { d with wanted := true, held := [] }).kick)

/-- DOMAIN_HELD: the coordinator receives HELD from member `n₃`; when every member holds, START goes
out. -/
def execDomainHeld (s : State) : Host.Outcome State Fault Refusal :=
  let a := s.arg
  .next (match s.domainGang a.n₁ a.n₂ with
    | none => s
    | some d =>
      if !d.coordinator || d.started || !(d.members.contains a.n₃) then s
      else
        let d := { d with held := insertNat d.held a.n₃ }
        let s := s.modDomain a.n₁ a.n₂ fun _ => d
        if d.members.all (d.held.contains ·) then
          (s.tellMembers d).post .domainStart { EventArg.none with n₁ := a.n₁, n₂ := a.n₂ } else s)

/-- DOMAIN_START: a member receives START and starts the gang that it holds, once its tiles are
ready; the coordinator sends it once every member holds. The next gang of the grid is then
coordinated. -/
def execDomainStart (s : State) : Host.Outcome State Fault Refusal :=
  let a := s.arg
  .next (match s.domainGang a.n₁ a.n₂, s.gang a.n₁ a.n₂, s.launch a.n₁ with
    | some d, some g, some l =>
      if g.state ≠ .holding ∨ d.started ∨
          (d.coordinator ∧ !d.members.all (d.held.contains ·)) then s
      else if !s.tilesReady g then s.modDomain a.n₁ a.n₂ fun d => { d with go := true }
      else
        let s := s.modDomain a.n₁ a.n₂ fun d => { d with started := true, wanted := false, go := false }
        let s := s.startGang l g
        if d.coordinator ∧ a.n₂ + 1 < recGangs l.words then
          let d' := { d with
            idx := a.n₂ + 1, held := [], started := false, ended := [], wanted := false, go := false }
          ({ s with domainGangs := s.domainGangs ++ [d'] }).post .domainHold
            { EventArg.none with n₁ := a.n₁, n₂ := a.n₂ + 1 }
        else s
    | _, _, _ => s)

/-- DOMAIN_HOLD_TIMEOUT: a member has held for 1 ms without START: it releases its placement and
answers RELEASED. -/
def execDomainHoldTimeout (s : State) : Host.Outcome State Fault Refusal :=
  let a := s.arg
  .next (match s.domainGang a.n₁ a.n₂, s.gang a.n₁ a.n₂ with
    | some d, some g =>
      if g.state ≠ .holding ∨ d.started ∨ s.gtc < d.holdSince + 1000000 then s
      else
        let s := s.dropHold a.n₁ a.n₂
        if d.coordinator then
          s.post .domainReleased { EventArg.none with n₁ := a.n₁, n₂ := a.n₂, n₃ := s.device }
        else s
    | _, _ => s)

/-- DOMAIN_RELEASED: the coordinator receives RELEASED from member `n₃`, and sends RELEASE to every
member; with `flag` the member reports that its gang has ended. -/
def execDomainReleased (s : State) : Host.Outcome State Fault Refusal :=
  let a := s.arg
  .next (match s.domainGang a.n₁ a.n₂ with
    | none => s
    | some d =>
      if a.flag then
        let d := { d with ended := insertNat d.ended a.n₃ }
        if d.started ∧ (!d.coordinator ∨ d.members.all (d.ended.contains ·)) then
          let s := { s with domainGangs := s.domainGangs.filter fun x =>
            !(x.lid == a.n₁ && x.idx == a.n₂) }
          let s := (if d.coordinator then s
            else { s with launches := s.launches.filter (·.lid != a.n₁) }).clearCounts
          ((s.completeReady (s.launches.length + 1)).forgetLaunches).kick
        else s.modDomain a.n₁ a.n₂ fun _ => d
      else if !d.coordinator || d.started then s
      else
        ((s.tellMembers d).modDomain a.n₁ a.n₂ fun d => { d with
          held := [], wanted := false }).clearCounts.post
          .domainRelease { EventArg.none with n₁ := a.n₁, n₂ := a.n₂ })

/-- DOMAIN_RELEASE: a member receives RELEASE and frees its placement, and a further HOLD brings the
record again; the coordinator begins again with HOLD. -/
def execDomainRelease (s : State) : Host.Outcome State Fault Refusal :=
  let a := s.arg
  .next (match s.domainGang a.n₁ a.n₂ with
    | none => s
    | some d =>
      if d.started then s
      else
        let s := s.dropHold a.n₁ a.n₂
        if d.coordinator then
          (s.modDomain a.n₁ a.n₂ fun d => { d with wanted := false }).clearCounts.post .domainHold
            { EventArg.none with n₁ := a.n₁, n₂ := a.n₂ }
        else { s with
          domainGangs := s.domainGangs.filter fun x => !(x.lid == a.n₁ && x.idx == a.n₂)
          launches := s.launches.filter (·.lid != a.n₁) }.clearCounts)

/-! ### SPAWN and MBOXREG (15 R378, R391) -/

/-- The record at an address, read with the hart's loads: a lost sector is taken as a deferred
DATAERR (15 R378). -/
def State.readRecord (s : State) (va : Word) : State × Except ReadFail (List Word) :=
  match s.readWords va 16 with
  | (s, .error (.trap t)) =>
    match t.mfinfo with
    | some m =>
      if t.cause = .dataerr ∧ (slice m 0 8).toNat = reasonUE then
        (s.deliverError ⟨t.cause.code, va, t.mfinfo⟩, .error .lost)
      else (s, .error (.trap t))
    | none => (s, .error (.trap t))
  | r => r

/-- An instruction whose record has not been read. -/
def State.recordStop (s : State) (q : Issue) (f : ReadFail) : State :=
  match f with
  | .trap t => s.raise t
  | .held => s.stay 0
  | .lost => s.finish q

/-- −n as a 64-bit value. -/
def negWord (n : Nat) : Word := -(BitVec.ofNat 64 n)

/-- SPAWN (15 R378). -/
def execSpawn (st : StallCode) (d a : XReg) (s : State) : Host.Outcome State Fault Refusal :=
  let q : Issue := { word := encode (.spawn st d a), stall := st, side := true, reads := [.x a],
                     writes := [.x d] }
  .next (s.issue q fun s =>
    let va := s.readX a
    if va.toNat % 128 ≠ 0 then s.raise ⟨.misalign, va, some (mfinfoOf 0 0 0 0)⟩
    else if s.acquiring || !s.released then s.stay 0
    else match s.readRecord va with
      | (s, .error f) => s.recordStop q f
      | (s, .ok ws) =>
        let mine := match s.tile.place with
          | some p => (match s.launch p.lid with
            | some l => l.prio
            | none => 7)
          | none => 7
        match s.parse s.tile.ctx mine ws with
        | (s, .ok lid) => (s.commitX d (BitVec.ofNat 64 lid)).finish q
        | (s, .error (.code c)) => (s.commitX d (negWord c)).finish q
        | (s, .error .wait) => s.stay 0)

/-- The mailbox line that a translated address names: a line of this device's HBM. -/
def State.mailboxLine (s : State) (pa : Nat) : Option Nat :=
  if s.isLocal pa && regionOf (localAddr pa) == .hbm then some (localAddr pa) else none

/-- The lowest free mailbox slot, 1 to 256. -/
def State.freeSlot (s : State) : Option Nat :=
  ((List.range 256).map (· + 1)).find? fun n => !(s.mailboxes.any (·.slot == n))

/-- MBOXREG on a line (15 R391). -/
def State.bindMailbox (s : State) (line : Nat) (va rec_ : Word) : State × Except ReadFail Word :=
  let old := s.mailboxes.find? (·.line == line)
  if rec_ = 0 then
    match old with
    | some _ => ({ s with mailboxes := s.mailboxes.filter (·.line != line) }, .ok 0)
    | none => (s, .ok (negWord 18))
  else if rec_.toNat % 128 ≠ 0 then
    (s, .error (.trap ⟨.misalign, rec_, some (mfinfoOf 0 0 0 0)⟩))
  else match s.readRecord rec_ with
    | (s, .error e) => (s, .error e)
    | (s, .ok ws) =>
      match s.accepts none s.tile.ctx ws false with
      | (t, .error .wait) => (s.waitFor t, .error .held)
      | (s, .error (.code c)) => (s, .ok (negWord c))
      | (s, .ok _) =>
        let fresh (slot : Nat) : Mailbox :=
          { slot := slot, line := line, ctx := s.tile.ctx, level := s.tile.level, words := ws
            va := va, owed := 0, busy := none }
        match old with
        | some m =>
          ({ s with mailboxes := s.mailboxes.map fun (x : Mailbox) =>
              if x.slot = m.slot then { fresh m.slot with owed := m.owed, busy := m.busy } else x },
            .ok (BitVec.ofNat 64 m.slot))
        | none =>
          match s.freeSlot with
          | none => (s, .ok (negWord 17))
          | some n => ({ s with mailboxes := s.mailboxes ++ [fresh n] }, .ok (BitVec.ofNat 64 n))

/-- MBOXREG (15 R391). -/
def execMboxreg (st : StallCode) (d a b : XReg) (s : State) : Host.Outcome State Fault Refusal :=
  let q : Issue := { word := encode (.mboxreg st d a b), stall := st, level := 1,
                     reads := [.x a, .x b], writes := [.x d] }
  .next (s.issue q fun s =>
    let va := s.readX a
    if va.toNat % 128 ≠ 0 then (s.commitX d (negWord 16)).finish q
    else if s.acquiring || !s.releasedAt 0 then s.stay 0
    else match s.translate va.toNat .store with
      | .error e => s.raise (s.addrTrap { kind := .store, align := 0 } va e)
      | .ok x =>
        match s.mailboxLine x.pa with
        | none => (s.commitX d (negWord 16)).finish q
        | some line =>
          match s.bindMailbox line va (s.readX b) with
          | (s, .error f) => s.recordStop q f
          | (s, .ok v) => (s.commitX d v).finish q)

/-! ### Tasks (15 R392–R394) -/

/-- The entries of a task table in use. -/
def TaskTable.count (t : TaskTable) : Nat :=
  t.ready.length + t.parked.length + (if t.running.isSome then 1 else 0)

/-- What TASKQ names: the caller, a tile or save area of this device, or another device of the
domain gang. -/
inductive TaskTarget where
  | here
  | at (n : Nat)
  | far
  | none
  deriving DecidableEq, Repr

def State.taskTarget (s : State) (w : Word) : TaskTarget :=
  let launch := s.launchId (slice w 0 23)
  if bitAt w 63 then .here
  else match s.tile.place with
    | none => if launch = s.launchHartid then .here else .none
    | some p =>
      if p.launch = launch then .here
      else match s.receiver launch with
        | some n => (match (s.getTile n).place with
          | some x => if x.lid = p.lid ∧ x.gang = p.gang then .at n else .none
          | none => .none)
        | none =>
          if launch / 2048 ≠ s.device ∧ s.domainGangs.any fun d => d.lid == p.lid &&
              d.idx == p.gang && d.members.contains (launch / 2048) then .far else .none

/-- A task added READY to a table. -/
def Tile.enqueue (t : Tile) (k : Task) : Tile :=
  { t with tasks := { t.tasks with ready := t.tasks.ready ++ [k] } }

/-- TASKQ (15 R393). -/
def execTaskq (st : StallCode) (a : XReg) (s : State) : Host.Outcome State Fault Refusal :=
  let q : Issue := { word := encode (.taskq st a), stall := st, side := true, reads := blockReads a }
  .next (s.issue q fun s =>
    let routine := s.readX a
    let line := s.readX (a + 1)
    let cword := s.readX (a + 3)
    if routine.toNat % 4 ≠ 0 then s.raise ⟨.misalign, routine, none⟩
    else if line.toNat % 128 ≠ 0 then s.raise ⟨.misalign, line, none⟩
    else if cword.toNat % 8 ≠ 0 then s.raise ⟨.misalign, cword, none⟩
    else
      let k : Task := ⟨s.fresh, routine, line, cword⟩
      let add (s : State) (n : Nat) : State :=
        (({ s with fresh := s.fresh + 1 }).modTile n (·.enqueue k)).finish q
      match s.taskTarget (s.readX (a + 2)) with
      | .none => s.raise ⟨.gangerr, gangerrTval q.word 13, none⟩
      | .here =>
        if 64 ≤ s.tile.tasks.count then s.raise ⟨.gangerr, gangerrTval q.word 14, none⟩
        else if !s.released then s.stay 0
        else add s s.cur
      | .at n =>
        if 64 ≤ (s.getTile n).tasks.count ∨ !s.released then s.stay 0 else add s n
      | .far => if !s.released then s.stay 0 else s.finish q)

/-- A task that a hart of another device enqueues (15 R393); a full table leaves it waiting
there. -/
def State.foreignTask (s : State) (n : Nat) (k : Task) : State :=
  let t := s.getTile n
  let gang : Bool := match t.place with
    | some p => s.domainGangs.any fun d => d.lid == p.lid && d.idx == p.gang
    | none => false
  if !gang || decide (64 ≤ t.tasks.count) then s
  else { s with fresh := s.fresh + 1 }.modTile n (·.enqueue k)

/-- TASKEND (15 R394). -/
def execTaskend (st : StallCode) (s : State) : Host.Outcome State Fault Refusal :=
  let q : Issue := { word := encode (.taskend st), stall := st, writes := [.x 10#5] }
  .next (s.issue q fun s =>
    match s.tile.tasks.running with
    | none =>
      (s.onTile fun t => { t with cr := { t.cr with taskret := s.pc + 4 } }).taskLoop q
    | some k =>
      let ended (s : State) : State :=
        (s.onTile fun t => { t with tasks := { t.tasks with running := none } }).taskLoop q
      if s.acquiring || !s.released || decide (16 ≤ s.tile.ticketsOut) then s.stay 0
      else if k.cword = 0 then ended s
      else match s.check { kind := .atomic, align := 8 } k.cword with
        | .error t => s.raise t
        | .ok x => ended (s.request (s.newReq (.amo 0) [x.acc 8 0 1] .none k.cword)))

end Sys2Proof.Machine
end

