-- ==== Sys2Proof/Machine/System.lean ====
section
/-! DEFINITION. System and trap instructions, traps and interrupts at a boundary, pre-emption, power
gating, error banks and register-space writes (16, 18 R447, R448, 20 R454, R455). -/
namespace Sys2Proof.Machine

/-! ### Instructions (16 R406, R407, R409, R410, R421, R425) -/

/-- ECALL (16 R407). -/
def execEcall (s : State) : Host.Outcome State Fault Refusal :=
  let q : Issue := { word := s.withStall (encode .ecall), serial := true }
  .next (s.issue q fun s => s.raise ⟨.ecall, 0, none⟩)

/-- EBRK (16 R407). -/
def execEbrk (s : State) : Host.Outcome State Fault Refusal :=
  let q : Issue := { word := s.withStall (encode .ebrk), serial := true }
  .next (s.issue q fun s => s.raise ⟨.ebrk, 0, none⟩)

/-- The level that ERET returns to from FIRM. FPPL holds 3 only where FIRM has written it; no level
has that code, and the level is free (log 14). -/
def State.returnLevel (s : State) : BitVec 2 :=
  let p : BitVec 2 := slice s.tile.cr.status 6 2
  if p = 3 then BitVec.ofNat 2 ((Config.freeWord s.fresh).toNat % 3) else p

/-- The return from a trap: STATUS and the pc (16 R406). -/
def State.leaveTrap (s : State) : State × Word :=
  let st := s.tile.cr.status
  let set (v : Word) : State := s.onTile fun t => { t with cr := { t.cr with status := v } }
  if s.tile.level = 2 then
    let v := setSlice (setSlice (setSlice st 1 1 (slice st 9 1)) 9 1 0#1) 2 2 s.returnLevel
    ({ set v with fresh := s.fresh + 1 }, s.tile.cr.fepc)
  else
    let v := setSlice (setSlice (setSlice st 0 1 (slice st 8 1)) 8 1 0#1) 2 2 (slice st 4 2)
    (set v, s.tile.cr.sepc)

/-- ERET (16 R406, 04 R80): a boundary that does not wait for scoreboarded writes. -/
def execEret (s : State) : Host.Outcome State Fault Refusal :=
  let q : Issue := { word := s.withStall (encode .eret), vector := true, level := 1 }
  .next (s.issue q fun s =>
    let (s, pc) := s.settle.leaveTrap
    (s.finishAt q pc).resumeFrame)

/-- An interrupt that IENABLE enables is pending: a WFI completes (16 R407). -/
def State.wakes (s : State) : Bool := s.tile.pending s.gtc &&& s.tile.cr.ienable != 0

/-- WFI (16 R407). -/
def execWfi (s : State) : Host.Outcome State Fault Refusal :=
  let q : Issue := { word := s.withStall (encode .wfi), serial := true, level := 1 }
  .next (s.issue q fun s => if s.wakes then s.finish q else s.stayBegun .wfi)

/-- PAUSE (16 R407): it only delays what follows. -/
def execPause (st : StallCode) (s : State) : Host.Outcome State Fault Refusal :=
  let q : Issue := { word := encode (.pause st), stall := st, units := .all }
  .next (s.issue q fun s => s.finish q)

/-- A gang that waits for the tile in focus to halt may go on (16 R421). A domain gang starts by
START alone: where it has come, or the coordinator has every HELD (15 R387). -/
def State.haltedForGang (s : State) : State :=
  if s.choice.defer then s
  else match s.gangs.find? fun g => g.tiles.contains s.cur && (s.tile.place.isNone) with
    | none => s
    | some g =>
      let a := { EventArg.none with n₁ := g.lid, n₂ := g.idx }
      if g.state = .stopping then s.post .gangResume a
      else match s.domainGang g.lid g.idx with
        | some d =>
          if d.go || (d.coordinator && d.members.all (d.held.contains ·)) then s.post .domainStart a
          else s
        | none => s.post .gangPlace { EventArg.none with n₁ := g.die }

/-- HALT (16 R410): the hart, or the sequencer that executes it, stops. -/
def execHalt (s : State) : Host.Outcome State Fault Refusal :=
  let q : Issue := { word := s.withStall (encode .halt), serial := true, units := .all
                     priv := fun s => (s.who == .eh || s.who == .vs) && s.tile.level == 0 }
  .next (s.issue q fun s =>
    let s := s.finish q
    match s.who with
    | .eh | .vs => (s.onTile fun t => { t with run := .halted }).haltedForGang
    | .as => s.onTile fun t => { t with acSeq := t.acSeq.stop }
    | .ss => s.onTile fun t => { t with stSeq := t.stSeq.stop })

/-- The tiles and clusters that a scope covers from a tile (07 R165, 16 R409). -/
def inScope (scope n m : Nat) : Bool :=
  match scope with
  | 0 => n == m
  | 1 => clusterOf n == clusterOf m
  | 2 => dieOf n == dieOf m
  | _ => true

/-- TLBINV drops an entry (16 R409): by mode, context and page. -/
def TlbEntry.dropped (e : TlbEntry) (mode ctx va : Nat) : Bool :=
  match mode with
  | 0 => e.hit ctx va
  | 1 => e.ctx == ctx && !bitAt e.leaf 7
  | _ => true

/-- TLBINV (16 R409): it completes once no tile of its region waits for a walk. -/
def execTlbinv (st : StallCode) (a b : XReg) (s : State) : Host.Outcome State Fault Refusal :=
  let mode (s : State) : Nat := (slice (s.readX b) 4 2).toNat
  let scope (s : State) : Nat := (slice (s.readX b) 0 3).toNat
  let q : Issue := { word := encode (.tlbinv st a b), stall := st, serial := true, level := 1
                     reads := [.x a, .x b]
                     illegal := fun s => mode s == 3 || decide (5 ≤ scope s)
                     priv := fun s => mode s == 2 && decide (s.tile.level < 2) }
  .next (s.issue q fun s =>
    let ctx := if s.tile.level = 2 then (slice (s.readX b) 16 12).toNat else s.tile.ctx
    let gone (e : TlbEntry) : Bool := e.dropped (mode s) ctx (s.readX a).toNat
    let near (n : Nat) : Bool := inScope (scope s) s.cur n
    let cluster (c : Nat) : Bool :=
      if scope s = 0 then c == clusterOf s.cur else near (32 * c)
    if s.misses.any fun m => m.tiles.any near then s.stay 0 else
    let s := s.mapTiles fun n t =>
      if near n then { t with tlb := t.tlb.filter (!gone ·) } else t
    { s with clusterTlb := s.clusterTlb.filter fun p => !(cluster p.1 && gone p.2) }.finish q)

/-- Work that keeps a tile from being gated (16 R421, step 1): a gang that is placed on the tile and
has not started holds it already. -/
def State.gateBusy (s : State) : Bool :=
  let t := s.tile
  t.place.isSome || s.gangs.any (·.tiles.contains s.cur) || t.acSeq.running ||
    t.stSeq.running || !t.reqs.isEmpty || !t.remote.isEmpty || !t.cmds.isEmpty ||
    !t.inbox.isEmpty || t.channels.toList.any (fun c => !c.entries.isEmpty) ||
    s.pins.any (·.tile == s.cur)

/-- PGATE (16 R421): while it prepares it waits; COMMIT is a step of its own. -/
def execPgate (st : StallCode) (d a : XReg) (s : State) : Host.Outcome State Fault Refusal :=
  let q : Issue := { word := encode (.pgate st d a), stall := st, serial := true, level := 2
                     reads := [.x a], writes := [.x d] }
  .next (s.issue q fun s =>
    let bell := s.tile.doorbell
    let clear (s : State) : State :=
      s.onTile fun t => { t with doorbell := { t.doorbell with rung := false, pending := false } }
    if bell.pending then
      (if bell.rung then ((clear s).commitX d 1).finish q else s.stay 0)
    else if s.gateBusy then (s.commitX d 2).finish q
    else
      let s := s.tile.cache.foldl (fun s l =>
        if l.dirty0 || l.dirty1 then s.evictLine s.cur l.addr else s) s
      let bell : Doorbell := ⟨s.tile.cr.ftvec, s.pc, bitAt (s.readX a) 0, false, true⟩
      let s := (s.onTile fun t => { t with doorbell := bell }).stay 0
      if s.choice.defer then s else s.post .pgateCommit { EventArg.none with tile := s.cur })

/-- ERRRD (16 R425): one indivisible read of the record. -/
def execErrrd (st : StallCode) (d a : XReg) (s : State) : Host.Outcome State Fault Refusal :=
  let q : Issue := { word := encode (.errrd st d a), stall := st, level := 1, reads := [.x a]
                     writes := [.x d, .x (d + 1), .x (d + 2)]
                     illegal := fun _ => decide (30 ≤ d.toNat) }
  .next (s.issue q fun s =>
    let id := (slice (s.readX a) 0 16).toNat
    let b : BankRecord := if bankExists id then s.bank id else ⟨id, 0, 0, 0⟩
    (((s.commitX d b.w0).commitX (d + 1) b.w1).commitX (d + 2) b.w2).finish q)

/-! ### Boundaries (16 R405) -/

/-- A CTXSAVE that has begun leaves its area with contents that the spec does not state: they are
free (16 R418, log 14). -/
def State.spoilArea (s : State) : State :=
  match s.tile.eh.begun with
  | some (.save pages) =>
    let base := s.fresh
    (List.range pages.length).foldl (fun s k =>
      s.writePage s.tile.ctx pages k fun i => Config.freeWord (base + 8192 * k + i))
      { s with fresh := base + 8192 * pages.length }
  | some .load | some .wfi | some (.fence _) | some (.reads _) | none => s

/-- An instruction of the execute hart is put off by a trap, an interrupt or a stop: a request on a
full/empty word, an arrival of MGANG, the preparation of a gating and a context save are withdrawn
(06 R140, 10 R260, 16 R418). -/
def State.withdraw (s : State) : State :=
  s.spoilArea.withdrawFe.onTile fun t => { t with
    arrival := none, doorbell := { t.doorbell with pending := false }
    eh := { t.eh with begun := none } }

/-- An interrupt is taken: the waiting instruction is withdrawn, but a WFI completes first
(16 R405, R407). -/
def State.interrupt (s : State) (c : Nat) : State :=
  let s := if s.tile.eh.begun = some .wfi then s.goTo (s.tile.eh.pc + 4) 0 else s
  s.withdraw.takeInterrupt c

/-- QDEADLK: after 4,096 cc in which the three units waited on queues the execute hart traps
(04 R86): the waiting instruction has no effect. -/
def execQdeadlk (s : State) : Host.Outcome State Fault Refusal :=
  .next (s.atTile s.arg.tile fun s =>
    let t := s.tile
    match t.stuckSince with
    | some c =>
      if t.stuck && decide (c + 4096 ≤ s.cc) then
        let tval : Word := BitVec.ofNat 64
          (t.eh.wait + 16 * t.acSeq.core.wait + 256 * t.stSeq.core.wait)
        s.withdraw.enterTrap false Cause.qdeadlk.code tval t.eh.pc (t.trapLevel Cause.qdeadlk.code)
      else s
    | none => s)

/-- The instruction has been served while it waited: it completes before an interrupt (06 R140,
10 R260). -/
def State.served (s : State) : Bool :=
  s.feServed || (match s.tile.arrival with
    | some a => a.opened
    | none => false)

/-- A boundary of a tile's running hart: `f` acts there. -/
def State.atBoundary (s : State) (n : Nat) (f : State → State) : State :=
  s.atTile n fun s =>
    let s := { s with who := .eh }
    if s.tile.run ≠ .running ∨ s.served then s else f s

/-- INTERRUPT_ENTRY: the lowest interrupt that is due is taken at SYS (16 R405). -/
def execInterruptEntry (s : State) : Host.Outcome State Fault Refusal :=
  .next (s.atBoundary s.arg.tile fun s =>
    match s.tile.deferred, s.tile.dueInterrupt s.gtc with
    | [], some c => if c = 3 ∧ bitAt s.tile.cr.inbctl 1 then s else s.interrupt c
    | _, _ => s)

/-- USER_INTERRUPT_ENTRY: INBOX with ULI enters the user-level handler (11 R290, R291). -/
def execUserInterruptEntry (s : State) : Host.Outcome State Fault Refusal :=
  .next (s.atBoundary s.arg.tile fun s =>
    match s.tile.deferred, s.tile.dueInterrupt s.gtc with
    | [], some c => if c = 3 ∧ bitAt s.tile.cr.inbctl 1 then s.interrupt c else s
    | _, _ => s)

/-- DEFERRED_TRAP: the oldest deferred trap is taken (08 R201, 16 R405). -/
def execDeferredTrap (s : State) : Host.Outcome State Fault Refusal :=
  .next (s.atBoundary s.arg.tile fun s =>
    if s.tile.deferred.isEmpty then s else s.withdraw.takeDeferred)

/-- TIMER_EXPIRY: GTC reaches the TIMECMP of a tile, `n₁` control clocks later (16 R402). -/
def execTimerExpiry (s : State) : Host.Outcome State Fault Refusal :=
  .next { s with
    gtc := max s.gtc (s.getTile s.arg.tile).cr.timecmp.toNat, cc := s.cc + s.arg.n₁ }

/-! ### Parked requests (08 R198) -/

/-- A request that is parked by a corrected retry has no earlier one of its lines before it. -/
def State.firstParked (s : State) (accs : List Acc) (id arrival : Nat) : Bool :=
  accs.all fun a => (s.lineParked (lineOf (localAddr a.pa)) id arrival).isNone

/-- PARKED_REPLAY: request `n₁` of a tile replays once its condition is gone (08 R198, 13 R335). A
parked BEXP replays with the BPOOL or the append that adds lines (12 R305). -/
def execParkedReplay (s : State) : Host.Outcome State Fault Refusal :=
  let n := s.arg.tile
  let id := s.arg.n₁
  .next (match (s.getTile n).reqs.find? (·.id == id) with
      | none =>
        (match (s.getTile n).remote.find? (·.id == id) with
         | some r =>
           if r.parked = some .retry then
             (if s.firstParked r.accs id r.arrival then
               s.atTile n fun s => (s.setRemote { r with parked := none }).serveRemote id fun _ => true
             else s)
           else s.replayPinned
         | none => s.replayPinned)
      | some q =>
        let again : State := (s.atTile n (·.setReq { q with parked := none })).serveAgain n id
        match q.parked with
        | some .retry => if s.firstParked q.accs id q.arrival then again else s
        | some .pinned => s.replayPinned
        | some .routineMiss =>
          (match q.kind with
           | .etch rid _ _ => if (s.imageOf q rid).isSome then again else s
           | .load | .store | .amo _ | .cas _ => s)
        | some .routineFault | some .held | some .pool | none => s)

/-! ### Pre-emption (16 R412–R416, 13 R342) -/

/-- Slots of the save pool of a context that its gangs hold, and the number promised to harts that
are being stopped. -/
def State.slotsHeld (s : State) (ctx : Nat) : List Nat × Nat :=
  let mine := s.gangs.filter fun g => (s.launch g.lid).any fun l => l.ctx == ctx
  (mine.flatMap fun g => g.saved.map (·.slot),
    (mine.filter fun g => g.state == .stopping).foldl
      (fun k g => k + (g.tiles.length - g.saved.length)) 0)

/-- The number of slots of a context's pool (16 R411). -/
def State.slotCount (s : State) (ctx : Nat) : Nat := min 4096 (s.blockWord ctx 11).toNat

/-- Slot 0 of a transfer phase of the tile's compact has started: the member stops after the last
slot (13 R342, 16 R412). -/
def State.inTransfer (s : State) (n : Nat) : Bool :=
  (s.getTile n).member.phase == .transfer && s.compacts.any fun c =>
    c.signed && c.num == (s.getTile n).member.compact &&
      (c.released.contains (dieOf n) || (c.nextSlot (dieOf n)).isSome)

/-- The gang of a tile's hart is being stopped. -/
def State.stopDue (s : State) (n : Nat) : Bool :=
  match (s.getTile n).place with
  | none => false
  | some p => s.gangs.any fun g => g.lid == p.lid && g.idx == p.gang && g.state == .stopping

/-- A hart stops at a boundary, as if an interrupt were taken; one that has been served while it
waited completes its instruction first (16 R412, R413). -/
def State.stopHart (s : State) (n : Nat) : State :=
  if s.inTransfer n then s
  else s.atBoundary n fun s => s.withdraw.onTile fun t => { t with run := .stopped }

/-- The tiles of a gang by rising launch HARTID. -/
def State.byLaunch (s : State) (ts : List Nat) : List Nat :=
  let key (n : Nat) : Nat := match (s.getTile n).place with
    | some p => p.launch
    | none => 0
  sortBy (fun a b => decide (key a ≤ key b)) ts

/-- The pre-emption of a gang (16 R412): every hart stops, and the saves follow. -/
def State.preempt (s : State) (lid idx : Nat) (front hold : Bool) : State :=
  match s.gang lid idx, s.launch lid with
  | some g, some l =>
    let (used, promised) := s.slotsHeld l.ctx
    if g.state ≠ .running ∨ s.slotCount l.ctx < used.length + promised + g.tiles.length then s
    else
      let s := s.modGang lid idx fun g => { g with
        state := .stopping, front := front, hold := hold, stopped := s.cc }
      let s := g.tiles.foldl (fun s n => s.stopHart n) s
      if s.choice.defer then s
      else (s.byLaunch g.tiles).reverse.foldl
        (fun s n => s.post .proofSave { EventArg.none with tile := n }) s
  | _, _ => s

/-- PREEMPT_REQUEST: the pre-emption of gang `n₂` of launch `n₁`, with `flag` for ROTATE
(16 R412, 15 R386, R397). -/
def execPreemptRequest (s : State) : Host.Outcome State Fault Refusal :=
  let a := s.arg
  .next (match s.launch a.n₁ with
    | some l => if a.flag ∧ recDomain l.words then s else s.preempt a.n₁ a.n₂ (!a.flag) false
    | none => s)

/-- The physical pages of a slot of a context's save pool (16 R411, R412). -/
def State.slotPages (s : State) (ctx slot : Nat) : List Nat :=
  let base := (s.blockWord ctx 7).toNat + slot * 0xC0000
  (List.range 12).map fun k => base + 0x10000 * k

/-- The lowest slot of a context that is free on this device. -/
def State.freeSaveSlot (s : State) (ctx : Nat) : Option Nat :=
  (List.range (s.slotCount ctx)).find? fun k => !((s.slotsHeld ctx).1.contains k)

/-- The hart as the save finds it: every write visible, its replay recorded (16 R412, 04 R79). -/
def Tile.atRest (t : Tile) : Tile :=
  let c := t.cutFrame
  { c with
    v := c.v.settle, m := c.m.settle
    eh := { c.eh with x := c.eh.x.settle, wait := 0, begun := none }
    acSeq := { c.acSeq with core := { c.acSeq.core with x := c.acSeq.core.x.settle } }
    stSeq := { c.stSeq with core := { c.stSeq.core with x := c.stSeq.core.x.settle } } }

/-- Every hart of a gang has been saved: its tiles and domains are free, and it is held or enters a
queue (16 R412, 15 R386, 20 R455). -/
def State.gangSaved (s : State) (g : Gang) : State :=
  let doms := s.domains.filter g.holds
  let s := s.freeGangDomains g
  let stamp := s.stamp
  let s := { s with stamp := stamp + 1 }.modGang g.lid g.idx fun g => { g with
    state := if g.hold then .held else .requeued
    tiles := [], domains := 0, kept := g.domains, doms := doms, stamp := stamp }
  s.kick

/-- PROOF_SAVE: the hart of a tile is saved into the lowest free slot, once its stores are
performed and no page of the slot is held up; the harts of a gang are saved by rising launch HARTID
(16 R412, R415, 07 R174). The tile is then free of it. -/
def execProofSave (s : State) : Host.Outcome State Fault Refusal :=
  let n := s.arg.tile
  .next (if !s.stopDue n then s
    else
      let s := s.stopHart n
      let t := s.getTile n
      match t.place with
      | none => s
      | some p => match s.gang p.lid p.gang, s.launch p.lid with
        | some g, some l =>
          let left := (s.byLaunch g.tiles).filter fun k => (s.getTile k).place.isSome
          match s.freeSaveSlot l.ctx with
          | none => s
          | some slot =>
            if t.run = .running ∨ left.head? ≠ some n ∨ !t.storesDone ∨
                s.areaHeld (s.slotPages l.ctx slot) true then s
            else
              let store := s.freshStore
              let u := t.atRest
              let hdr := u.areaHeader s.gtc p.launch u.eh.pc u.level
              let s := (s.setTile n u).saveHart n store (s.slotPages l.ctx slot) hdr
              let s := (s.modTile store fun k => { k with frame := t.frame }).clearTile n
              let s := s.modGang p.lid p.gang fun g => { g with
                saved := g.saved ++ [⟨p.launch, store, slot, n⟩] }
              if left.length = 1 then s.gangSaved g else s
        | _, _ => s)

/-- The tile that a saved hart is loaded into: its own where it is a member of a compact, and its
place in the new placement otherwise (13 R342, 16 R412). -/
def State.resumeTile (s : State) (g : Gang) (l : Launch) (bound : Bool) (h : SavedHart) : Nat :=
  if bound then h.tile
  else match (s.getTile h.store).place with
    | some p => g.tiles.getD (p.group * recSize l.words + p.hart) h.tile
    | none => h.tile

/-- The tile to which the hart of a tile returns. -/
def State.movedTo (s : State) (g : Gang) (l : Launch) (bound : Bool) (n : Nat) : Nat :=
  match g.saved.find? (·.tile == n) with
  | some h => s.resumeTile g l bound h
  | none => n

/-- A ring mask of a cluster, its positions renamed as the harts move. -/
def movedMask (move : Nat → Nat) (cluster : Nat) (mask : BitVec 32) : BitVec 32 :=
  ((List.range 32).filter (bitAt mask)).foldl
    (fun m p => m ||| (1#32 <<< (move (cluster * 32 + p) % 32))) 0

/-- The rotations that a resumed hart has pending, by the new positions of its ring (11 R293). -/
def Tile.moveRings (t : Tile) (move : BitVec 32 → BitVec 32) : Tile :=
  { t with
    cmds := t.cmds.map fun c =>
      if c.isRing then { c with ctl := setSlice c.ctl 0 32 (move c.mask) } else c
    late := t.late.map fun p => if p.1 = 0 then (0, (move (BitVec.ofNat 32 p.2)).toNat) else p }

/-- Pinned segments of a tile as they stand there: a resumed member finds its range as it is
(13 R342). -/
def Tile.keepPinned (t old : Tile) (pinned : BitVec 8) : Tile :=
  let pin (off : Nat) : Bool := bitAt pinned (off / 0x10000)
  { t with
    sram := (List.range 8).flatMap fun k =>
      (if bitAt pinned k then old.sram else t.sram).filter fun p => p.1 / 0x10000 == k
    empty := (old.empty.filter pin).foldl insertNat (t.empty.filter (!pin ·)) }

/-- A saved hart is loaded and goes on at its saved pc and level (16 R412, R416). TDELEG is that of
the context (16 R411). Its commands, those that stand in areas of earlier CTXSAVEs too, count their
time on from the stop (11 R285); what comes for it goes to the newest of those areas (16 R415). -/
def State.resumeHart (s : State) (g : Gang) (l : Launch) (move : Nat → Nat) (h : SavedHart) : State :=
  let k := s.getTile h.store
  let n := move h.tile
  let old := s.getTile n
  let pinned := s.pinnedSegs n
  let ring := movedMask move (clusterOf h.tile)
  let pages := s.slotPages l.ctx h.slot
  let w := s.areaWord pages
  let tdeleg := s.blockWord l.ctx 6 &&& crMask 0x45
  let again (t : Tile) : Tile :=
    let t := t.moveRings ring
    { t with cmds := t.cmds.map (·.resumeClock g.stopped s.cc) }
  let s := s.loadHart n pages 2 l.ctx h.launch
  let s := k.away.foldl (fun s a => s.modTile a again) s
  s.modTile n fun t => { (again t).keepPinned old pinned with
    eh := { t.eh with pc := w 1 &&& ~~~3#64, wait := 0 }
    run := if k.run = .halted then .halted else .running
    loading := decide (k.run ≠ .halted)
    frame := k.frame
    away := k.away
    place := k.place.map fun p => { p with domains := g.domains }
    member := if k.member.phase = .free then t.member else old.member
    cr := { t.cr with
      ctxid := BitVec.ofNat 64 l.ctx
      tdeleg := tdeleg
      status := setSlice t.cr.status 2 2 (slice (w 2) 0 2)
      framepos := if k.frame.isSome then setSlice t.cr.framepos 63 1 0#1 else t.cr.framepos
      ipend := (w 102 &&& 0x1E2#64) ||| 2#64 } }

/-- The injection queue of the tile that a saved hart returns to, where messages of an ended gang
may stand, has room for its entries (14 R345). -/
def State.injRoom (s : State) (l : Launch) (move : Nat → Nat) (h : SavedHart) : Bool :=
  let orphans := ((s.getTile (move h.tile)).inj.filter (·.orphan)).length
  decide (s.areaInj (s.slotPages l.ctx h.slot) + orphans ≤ 16)

/-- GANG_RESUME: gang `n₂` of launch `n₁`, saved and placed, is loaded, and PREEMPT is set on its
harts (16 R412, R416). -/
def execGangResume (s : State) : Host.Outcome State Fault Refusal :=
  let a := s.arg
  .next (match s.gang a.n₁ a.n₂, s.launch a.n₁ with
    | some g, some l =>
      let held := g.saved.any fun h => s.areaHeld (s.slotPages l.ctx h.slot) false
      let ready := !held && g.tiles.all fun n =>
        let t := s.getTile n
        t.place.isNone && t.run == .halted && t.ctx == 0 && s.poweredTile n
      let bound := g.saved.any fun h => (s.getTile h.store).member.phase != .free
      let move := s.movedTo g l bound
      if g.state ≠ .stopping ∨ g.saved.length ≠ g.tiles.length ∨ g.saved = [] ∨ !ready ∨
          !g.saved.all (s.injRoom l move) then s
      else
        let s := g.saved.foldl (fun s h => s.resumeHart g l move h) s
        let doms := (g.doms.filter fun d => bitAt g.domains d.num).map fun (d : Domain) =>
          { d with die := g.die, tiles := d.tiles.map move, arrived := d.arrived.map move }
        { s with domains := doms ++ s.domains }.modGang a.n₁ a.n₂ fun g => { g with
          state := .running, saved := [], doms := [], startNs := s.gtc, gone := g.gone.map move }
    | _, _ => s)

/-- PREQ_PREEMPT_HOLD: OP 1 on the gang that holds the launch HARTID `n₁` (20 R455). -/
def execPreqPreemptHold (s : State) : Host.Outcome State Fault Refusal :=
  .next (match s.gangOf s.arg.n₁ with
    | none => s
    | some g => match s.launch g.lid with
      | none => s
      | some l => if recDomain l.words then s else s.preempt g.lid g.idx true true)

/-- PREQ_RELEASE: OP 2 on the held gang of the launch HARTID `n₁` (20 R455). -/
def execPreqRelease (s : State) : Host.Outcome State Fault Refusal :=
  .next (match s.gangOf s.arg.n₁ with
    | none => s
    | some g =>
      if g.state ≠ .held then s
      else
        let stamp := s.stamp
        ({ s with stamp := stamp + 1 }.modGang g.lid g.idx fun g => { g with
          state := .requeued, front := true, stamp := stamp }).kick)

/-! ### Power gating (16 R408, R420–R422) -/

/-- PGATE_COMMIT: the COMMIT of a tile that prepares its gating, where no wake has come (16
R421). -/
def execPgateCommit (s : State) : Host.Outcome State Fault Refusal :=
  let n := s.arg.tile
  .next (
    let bell := (s.getTile n).doorbell
    if !bell.pending || bell.rung then s
    else
      let s := (s.getTile n).cache.foldl (fun s l => s.evictLine n l.addr) s
      let s := if bell.retain then s else s.convert n 0
      s.modTile n fun t => { Tile.reset n with
        run := .gated
        doorbell := { bell with pending := false }
        cr := { CtrlRegs.reset with segmode := if bell.retain then t.cr.segmode else 0 }
        sram := if bell.retain then t.sram else []
        empty := if bell.retain then t.empty else []
        feWaits := t.feWaits
        placeable := t.placeable, physical := t.physical })

/-- TILE_POWER_UP: a gated tile whose doorbell has latched a wake starts at FTVEC (16 R408,
R421). -/
def execTilePowerUp (s : State) : Host.Outcome State Fault Refusal :=
  .next (s.atTile s.arg.tile fun s =>
    let bell := s.tile.doorbell
    if s.tile.run ≠ .gated ∨ !bell.rung then s
    else
      let s := s.onTile fun t => { t with cr := { t.cr with ftvec := bell.ftvec } }
      let pc := s.ftvec
      s.onTile fun t => { t with
        run := .running
        doorbell := { bell with rung := false }
        eh := { t.eh with pc := pc &&& ~~~3#64 }
        cr := { t.cr with
          ftcause := 0x8000000000000004#64
          fepc := bell.pgate + 4
          ftval := if bell.retain then 1 else 0 } })

/-- DOORBELL: a store to the DOORBELL of a tile (16 R420, R421). -/
def execDoorbell (s : State) : Host.Outcome State Fault Refusal := .next (s.wake s.arg.tile)

/-! ### Release and reset (16 R410, R457, 01 R30) -/

/-- A halted hart starts at FTVEC at FIRM (16 R410). -/
def State.release (s : State) (n : Nat) : State :=
  s.atTile n fun s =>
    if s.tile.run ≠ .halted ∨ !(vget s.mgmt.powered (dieOf n) false) then s
    else
      let pc := s.ftvec
      s.onTile fun t => { t with
        run := .running
        eh := { t.eh with pc := pc &&& ~~~3#64, wait := 0 }
        cr := { t.cr with
          ftcause := 0, fepc := t.eh.pc &&& ~~~3#64, status := setSlice t.cr.status 2 2 2#2 } }

/-- HART_RELEASE: the management controller releases the halted hart of a tile (16 R410). -/
def execHartRelease (s : State) : Host.Outcome State Fault Refusal := .next (s.release s.arg.tile)

/-- What a reset of the device keeps: memory with its errors, the always-on domain, repairs, the
host's side, and the model's own fields (log 22). -/
def State.resetDevice (s : State) : State :=
  { State.reset with
    agenda := s.agenda, choice := s.choice, fresh := s.fresh, cc := s.cc
    mem := s.mem, injected := s.injected, poisoned := s.poisoned
    service := s.service, mgmt := { s.mgmt with up := false }, boxes := s.boxes
    tile := { Tile.reset 0 with
      placeable := (s.getTile 0).placeable, physical := (s.getTile 0).physical }
    others := (s.tiles.filter fun p => p.1 ≠ 0 ∧ p.1 < 2048 ∧
      (p.2.placeable = false ∨ p.2.physical ≠ p.1 % 32)).map fun p =>
        (p.1, { Tile.reset p.1 with placeable := p.2.placeable, physical := p.2.physical }) }

/-- DEVICE_RESET: the state of 01 R30. -/
def execDeviceReset (s : State) : Host.Outcome State Fault Refusal := .next s.resetDevice

/-! ### Register-space writes (06 R113, 16 R411) -/

/-- RESETVEC: the reset vector of die `n₁` is written (16 R411, R457). -/
def execResetvec (s : State) : Host.Outcome State Fault Refusal :=
  .next { s with resetvec := vset s.resetvec s.arg.n₁ s.arg.w₁ }

/-- ERRCLR: every field of the record of bank `n₁` is cleared (16 R424). -/
def execErrclr (s : State) : Host.Outcome State Fault Refusal :=
  .next { s with banks := s.banks.filter fun b => b.bank != s.arg.n₁ }

/-- SLICEMAP_WRITE: word `n₂` of the SLICEMAP of die `n₁` is written (06 R114). -/
def execSlicemapWrite (s : State) : Host.Outcome State Fault Refusal :=
  let row := vget s.slicemap s.arg.n₁ (Vector.replicate 64 0)
  .next { s with
    slicemap := vset s.slicemap s.arg.n₁ (vset row s.arg.n₂ (slice s.arg.w₁ 0 6)) }

/-- ERRINJ_INJECT: the check bits of the sector at local address `n₁` are corrupted, with `flag`
uncorrectably (18 R447, R448). -/
def execErrinjInject (s : State) : Host.Outcome State Fault Refusal :=
  let sector := sectorOf s.arg.n₁
  .next (if regionOf s.arg.n₁ = .hbm then
      { s with injected := (sector, s.arg.flag) :: s.injected.filter fun p => p.1 != sector }
    else s)

/-- ERRINJ_SCRUB: the home of the line at `n₁` reads it once, for no consumer (18 R448). -/
def execErrinjScrub (s : State) : Host.Outcome State Fault Refusal :=
  let k := sectorOf (lineOf s.arg.n₁)
  .next ((s.detect k).detect (k + 1))

/-- A write of ERRINJ (18 R447): what follows it comes first. -/
def State.writeErrinj (s : State) (v : Word) : State :=
  let pa := (slice v 6 50).toNat * 64
  let bad := !bitAt v 63 || bitAt v 61 || v &&& 0x0F0000000000003F#64 != 0 || !s.isLocal pa ||
    regionOf (localAddr pa) != .hbm
  if bad then s
  else
    let a := { EventArg.none with n₁ := localAddr pa, flag := bitAt v 60 }
    (if bitAt v 62 then s.post .errinjScrub a else s).post .errinjInject a

/-- A write of PREQ (20 R454, R455): one with a reserved bit set has no effect at all. -/
def State.writePreq (s : State) (v : Word) : State :=
  if v &&& 0xFFFFFFF8FC800000#64 != 0 then s
  else
    let hart := slice v 0 23
    let s := { s with preq := hart.setWidth 64 }
    let a := { EventArg.none with n₁ := hart.toNat }
    if slice v 24 2 = 1#2 then s.post .preqPreemptHold a
    else if slice v 24 2 = 2#2 then s.post .preqRelease a
    else s

/-- An aligned 8-byte write of a register, by a level (16 R411). -/
def State.writeReg (s : State) (off level : Nat) (v : Word) : State :=
  match regName off with
  | some (.binding l) => { s with bindings := putKey s.bindings l (v &&& 0x8000000000070FFF#64) }
  | some (.bank id w) => if w = 3 then s.post .errclr { EventArg.none with n₁ := id } else s
  | some (.slicemap k i) =>
    s.post .slicemapWrite { EventArg.none with n₁ := k, n₂ := i, w₁ := v }
  | some .ctxkill =>
    if slice v 0 12 = 0 then s
    else s.post .ctxkill { EventArg.none with n₁ := (slice v 0 12).toNat }
  | some (.resetvec k) => s.post .resetvec { EventArg.none with n₁ := k, w₁ := v }
  | some .errinj => s.writeErrinj v
  | some .preq => s.writePreq v
  | some (.block ctx w) =>
    if w < 12 ∧ (w = 0 ∨ level = 2) then
        s.setBlockWord ctx w (if w = 0 then v &&& 0xFF#64 else v)
      else s
  | some (.channelImage _ _) => s
  | some (.doorbell n) => s.post .doorbell { EventArg.none with tile := n }
  | none => s

/-- One word written at a local address of the register space: in the launch window, one that covers
byte 127 of a line triggers it (15 R374). -/
def State.writeRegSpace (s : State) (la level : Nat) (v : Word) : State :=
  match regionOf la with
  | .launch off =>
    let s := { s with mem := writeLE (fun (m : Memory) a b => m.write a b) s.mem la v.toNat 8 }
    if off % 128 = 120 then s.post .launchTrigger { EventArg.none with n₂ := off / 128 } else s
  | .regs off => s.writeReg off level v
  | .appRegs off => { s with appRegs := putKey s.appRegs (off / 8) v }
  | .hbm | .window _ _ | .appSram | .hostMem | .unmapped => s

/-- REG_SPACE_WRITE: the words that `n₂` names of the 64 bytes `vec` at local address `n₁` are
written by level `n₃` (06 R113). -/
def execRegSpaceWrite (s : State) : Host.Outcome State Fault Refusal :=
  let a := s.arg
  .next ((List.range 8).foldl (fun s k =>
    if a.n₂.testBit k then s.writeRegSpace (a.n₁ / 64 * 64 + 8 * k) a.n₃ (slice a.vec (64 * k) 64)
    else s) s)

/-! ### The kill of a context (16 R427, 13 R343, 14 R371, 15 R380, 17 R439) -/

/-- The hart of a tile stops for good: nothing of it is left, and the tile is free. -/
def Tile.killed (t : Tile) (n : Nat) : Tile :=
  let r := t.vacate n
  { r with member := { r.member with verdict := none } }

/-- What a context has under way at the homes, in the engines and in the injection queue of a tile:
nothing of it has an effect after the context's kill (08 R200, R215, 14 R371). -/
def Tile.dropContext (t : Tile) (ctx : Nat) : Tile :=
  { t with
    reqs := t.reqs.filter (·.ctx != ctx)
    remote := t.remote.filter (·.ctx != ctx)
    cmds := t.cmds.filter (·.ctx != ctx)
    inj := t.inj.filter (·.ctx != ctx) }

/-- A core that runs with the killed context takes local interrupt 24 into HS mode (17 R439). -/
def AppCore.kill (c : AppCore) (ctx : Nat) : AppCore :=
  if (c.virt && (slice c.dctx 0 12).toNat == ctx) || (slice c.dctx 16 12).toNat == ctx then
    { c with interrupt := some ctx, virt := false }
  else c

/-- A request, an RLD or RST or a message of a tile stands under a number. -/
def Tile.hasRequest (t : Tile) (id : Nat) : Bool :=
  t.reqs.any (·.id == id) || t.remote.any (·.id == id) || t.inj.any (·.id == id)

/-- What other tiles and the ports hold of the killed harts: waiting requests on words, and packets
of their own requests that wait for a port, where nothing stands any more that they belong to
(14 R371). -/
def State.dropHarts (s : State) (ts : List Nat) : State :=
  let s := s.mapTiles fun _ t => { t with feWaits := t.feWaits.filter fun w => !(ts.contains w.tile) }
  { s with
    ports := vmap (fun (p : Port) => { p with
      waiting := p.waiting.filter fun k =>
        !(k.input == ownInput && k.request && ts.contains k.tile &&
          !(s.getTile k.tile).hasRequest k.req) }) s.ports
    domains := s.domains.map fun (d : Domain) => { d with
      arrived := d.arrived.filter fun n => !(ts.contains n) } }

/-- A context is killed on this device (16 R427). The shared cache of the application complex writes
its lines back (17 R439). -/
def State.killContext (s : State) (ctx : Nat) : State :=
  let s := { s with killed := insertNat s.killed ctx }.mapTiles fun _ t => t.dropContext ctx
  let s := ((s.appCache.filter fun l =>
    (l.dirty0 && l.tag0 == ctx) || (l.dirty1 && l.tag1 == ctx)).map (·.addr)).foldl
      (fun s line => s.dropApp line) s
  let s := s.killCompacts ctx
  let ours (lid : Nat) : Bool := match s.launch lid with
    | some l => l.ctx == ctx
    | none => false
  let mine (t : Tile) : Bool := t.ctx == ctx || (match t.place with
    | some p => ours p.lid
    | none => false)
  let ts := (s.tiles.filter fun p => mine p.2).map (·.1)
  let s := (s.discardColls ts).dropHarts ts
  let s := ts.foldl (fun s n => if n < 2048 then s.modTile n (·.killed n) else s) s
  let lids := (s.launches.filter fun l => l.ctx == ctx).map (·.lid)
  let s := (s.gangs.filter fun g => ours g.lid).foldl (fun s g => s.freeGangDomains g) s
  let s := { s with
    others := s.others.filter fun p => p.1 < 2048 || !(ts.contains p.1)
    areas := s.areas.filter fun a => !(ts.contains a.store)
    gangs := s.gangs.filter fun g => !(lids.contains g.lid)
    domainGangs := s.domainGangs.filter fun d => !(lids.contains d.lid)
    graphs := s.graphs.filter fun g => g.ctx != ctx
    reclaims := s.reclaims.filter fun r => r.ctx != ctx
    mailboxes := s.mailboxes.map fun (m : Mailbox) =>
      if m.ctx = ctx then { m with owed := 0, busy := none } else m
    cores := vmap (fun (c : AppCore) => c.kill ctx) s.cores }
  let s := lids.foldl (fun s lid => s.setLaunchState lid .killed) s
  s.forgetLaunches.clearCounts.kick

/-- CTXKILL: context `n₁` is killed on this device, or, with `flag`, on device `n₂` of the
domain, of which its part here learns (16 R411, R427, 13 R343). The spec states neither the address
nor word 3 of an entry of KIND 4: they are free (log 14). -/
def execCtxkill (s : State) : Host.Outcome State Fault Refusal :=
  let ctx := s.arg.n₁ % 4096
  .next (if s.arg.flag then
      let s := s.killedElsewhere ctx
      { s with
        fresh := s.fresh + 2
        killedAt := (s.arg.n₂, ctx) :: s.killedAt.filter (· != (s.arg.n₂, ctx)) }.report ctx 4
          (Config.freeWord s.fresh)
        (Config.freeWord (s.fresh + 1))
    else if ctx = 0 then s
    else s.killContext ctx)

end Sys2Proof.Machine
end

