-- ==== Sys2Proof/Machine/Outside.lean ====
section
/-! DEFINITION. The host port and bias, the application complex, management, live service, bring-up
and power (17, 01 R14). -/
namespace Sys2Proof.Machine

/-! ### Bias (17 R432–R434) -/

/-- The page of 4 KiB that holds a local address. -/
def biasPage (la : Nat) : Nat := la / 4096

/-- Lines of a page that a tile or the application complex owns, rising (17 R433). -/
def State.ownedLines (s : State) (page : Nat) : List Nat :=
  let owned (c : List CacheLine) : List Nat :=
    (c.filter fun l => l.owned && biasPage l.addr == page).map (·.addr)
  let ls := (s.tiles.flatMap fun p => owned p.2.cache) ++ owned s.appCache
  sortBy (fun a b => decide (a ≤ b)) ls.eraseDups

/-- Lines of a page that the host holds, rising. -/
def State.heldLines (s : State) (page : Nat) : List Nat :=
  sortBy (fun a b => decide (a ≤ b)) (s.snoop.filter fun l => biasPage l == page)

/-- The flip of a page in progress. -/
def State.flipOf (s : State) (page : Nat) : Option Flip := s.flips.find? (·.page == page)

def State.setFlip (s : State) (f : Flip) : State :=
  { s with flips := s.flips.map fun (x : Flip) => if x.page = f.page then f else x }

/-- A flip is complete: the bit changes; one that a command started counts in DONE and sends MSI-X
vector 0 (17 R434). -/
def State.endFlip (s : State) (f : Flip) : State :=
  let s := { s with
    flips := s.flips.filter fun x => x.page != f.page
    hostBias := if f.toHost then insertNat s.hostBias f.page else removeNat s.hostBias f.page }
  if f.command then { s with biasDone := s.biasDone + 1, msix := s.msix + 1 } else s

/-- A flip of a page starts: the lines to recall, or those that the host holds, of which every one
is snooped away (17 R433). -/
def State.startFlip (s : State) (page : Nat) (toHost command : Bool) : State :=
  let lines := if toHost then s.ownedLines page else s.heldLines page
  { s with
    flips := s.flips ++ [⟨page, toHost, command, lines⟩]
    snoopClean := if toHost then s.snoopClean
      else s.snoopClean.filter fun l => biasPage l != page }

/-- Every line of a page is recalled and its flip to host bias completes. -/
def State.finishFlip (s : State) (page : Nat) : State :=
  match s.flipOf page with
  | none => s
  | some f => (f.lines.foldl (fun s l => s.recall l) s).endFlip f

/-- A host access reaches a line: the state after what it starts, and whether it is served now or
held (17 R433). Only one flip runs at a time: an access that would start one waits for another's end
(17 R434). -/
def State.hostReach (s : State) (line : Nat) : State × Bool :=
  let page := biasPage line
  let held (s : State) : Bool := s.lineHeld line || (match s.flipOf page with
    | some f => if f.toHost then f.lines.contains line else true
    | none => false)
  if (s.flipOf page).isSome || s.hostBias.contains page then (s, !held s)
  else if !s.flips.isEmpty then (s, false)
  else
    let s := s.startFlip page true false
    let s := if s.choice.defer then s else s.finishFlip page
    (s, !held s)

/-- BIASSTAT as it reads (17 R434). -/
def State.biasStat (s : State) : Word :=
  let bit (b : Bool) : BitVec 1 := if b then 1#1 else 0#1
  bit (!s.flips.isEmpty) ++ bit s.biasErr ++ 0#30 ++ s.biasDone

/-- A write of BIASCMD with GO = 1 (17 R434). -/
def State.biasCommand (s : State) (v : Word) (toHost : Bool) : State :=
  let page := (slice v 12 32).toNat
  if !s.flips.isEmpty || regionOf (4096 * page) != .hbm then { s with biasErr := true }
  else
    let s := { s with biascmd := v &&& 0x40000FFFFFFFF000#64 }
    if s.hostBias.contains page == toHost then
      { s with biasDone := s.biasDone + 1, msix := s.msix + 1 }
    else
      let lines := if toHost then s.ownedLines page else s.heldLines page
      let s := s.startFlip page toHost true
      if s.choice.defer then s
      else
        let s := s.post .biasFlipDone { EventArg.none with n₁ := page }
        if toHost then s
        else lines.reverse.foldl
          (fun s l => s.post .birsp { EventArg.none with n₁ := 1, n₃ := l }) s

/-- BIAS_FLIP_HOST: BIASCMD is written with GO = 1 and TARGET = 1 (17 R434). -/
def execBiasFlipHost (s : State) : Host.Outcome State Fault Refusal :=
  .next (s.biasCommand (s.arg.w₁ ||| 0x4000000000000000#64) true)

/-- BIAS_FLIP_DEVICE: BIASCMD is written with GO = 1 and TARGET = 0 (17 R434). -/
def execBiasFlipDevice (s : State) : Host.Outcome State Fault Refusal :=
  .next (s.biasCommand (s.arg.w₁ &&& 0xBFFFFFFFFFFFFFFF#64) false)

/-- BIAS_FLIP_DONE: the flip of page `n₁` recalls its next line, in ascending address, or completes
when no line is left (17 R433, R434). -/
def execBiasFlipDone (s : State) : Host.Outcome State Fault Refusal :=
  .next (match s.flipOf s.arg.n₁ with
    | none => s
    | some f => match f.lines with
      | [] => s.endFlip f
      | l :: rest =>
        if !f.toHost then s
        else
          let s := (s.recall l).setFlip { f with lines := rest }
          if s.choice.defer then s
          else s.post .biasFlipDone { EventArg.none with n₁ := f.page })

/-- Dirty bytes of the host come home for a line, from an offset in it on (17 R432). -/
def State.hostReturns (s : State) (line off : Nat) (bytes : List Byte) : State :=
  let n := min (128 - off) bytes.length
  if n = 0 then s
  else
    let s := s.writeMem 0 (line + off) n (readLE (fun i => bytes.getD i 0) 0 n)
    ([0, 1].foldl (fun s k =>
      if off ≤ 64 * k ∧ 64 * k + 64 ≤ off + n then s.cleanse (sectorOf line + k) else s)
      s).mailboxTriggers [(line + off, n)]

/-- The host has given up its copy of a line: the answer to a BISnpInv (17 R432, R433). -/
def State.snoopInv (s : State) (line : Nat) : State :=
  { s with
    snoop := removeNat s.snoop line, snoopClean := removeNat s.snoopClean line
    flips := s.flips.map fun f =>
      if f.toHost then f else { f with lines := removeNat f.lines line } }

/-- The host's copy of a line is clean: the answer to a BISnpData. While a flip to device bias waits
for the line its snoop is the other one (17 R432, R433). -/
def State.snoopData (s : State) (line : Nat) : State :=
  if s.flips.any fun f => !f.toHost && f.lines.contains line then s
  else { s with snoopClean := insertNat s.snoopClean line }

/-- BIRSP: the host answers the snoop of line `n₃`, with its dirty bytes, from offset `w₁` in the
line on, if it has any. With `n₁` = 1 the answer is to a BISnpInv, with 2 to a BISnpData, and with 0
to the snoop of the waiting request `n₂` of a tile, which goes on (17 R432, R433). -/
def execBirsp (s : State) : Host.Outcome State Fault Refusal :=
  let a := s.arg
  let line := lineOf a.n₃
  .next (if !s.snoop.contains line then s
    else
      let s := s.hostReturns line (a.w₁.toNat % 128) a.bytes
      if a.n₁ = 1 then s.snoopInv line
      else if a.n₁ ≠ 0 then s.snoopData line
      else match (s.getTile a.tile).reqs.find? fun q => q.id == a.n₂ && q.touches line with
        | none => s.snoopInv line
        | some q =>
          let s := if q.kind = .load then s.snoopData line else s.snoopInv line
          (s.atTile a.tile (·.setReq { q with snooped := true })).serveAgain a.tile q.id)

/-- BIASSTAT_ERR_CLEAR: the host writes BIASSTAT (17 R434). -/
def execBiasstatErrClear (s : State) : Host.Outcome State Fault Refusal :=
  .next (if bitAt s.arg.w₁ 62 then { s with biasErr := false } else s)

/-! ### Accesses of the host (17 R430, R431) -/

/-- Bytes of the event as a number. -/
def EventArg.value (a : EventArg) : Nat := readLE (fun i => a.bytes.getD i 0) 0 a.bytes.length

/-- CXL memory is reported active: bring-up is done, and the firmware of every die that did not fail
has reported ready (17 R445). -/
def State.cxlActive (s : State) : Bool :=
  s.mgmt.up && (List.range 4).all fun k =>
    s.mgmt.failedDies.contains k || (vget s.mgmt.firmware k Firmware.reset).ready

/-- A local address lies in the HDM range: in HBM, but for that of a die whose bring-up failed
(17 R445). -/
def State.inHdm (s : State) (la : Nat) : Bool :=
  regionOf la == .hbm && !s.mgmt.failedDies.contains (la / 0x1800000000)

/-- A host access is answered as an Unsupported Request (17 R430). -/
def State.hostRefuse (s : State) : State := { s with hostData := none, hostError := true }

/-- A host access of CXL.mem, of `n` bytes of one sector, that the port accepts (17 R430, R445).
That an access before CXL memory is active, or beyond the HDM range, is an Unsupported Request is
read from the two rules (DEDUCED, log 51). -/
def State.hostMemOk (s : State) (la n : Nat) : Bool :=
  s.cxlActive && s.inHdm la && n != 0 && sectorOf la == sectorOf (la + n - 1)

/-- A CXL.mem write of the bytes of the event at local address `n₁`. -/
def State.hostWrite (s : State) : State :=
  let a := s.arg
  let la := a.n₁
  let n := a.bytes.length
  if !s.hostMemOk la n then s.hostRefuse
  else
    let (s, now) := s.hostReach (lineOf la)
    if !now then s
    else
      let s := { s with hostError := false }.writeMem 0 la n a.value
      let s := if n = 64 then s.cleanse (sectorOf la) else s
      s.mailboxTriggers [(la, n)]

/-- A write to BAR0: the launch window takes up to 128 bytes, across lines too (17 R430). A write
that covers byte 127 of a line triggers it (15 R374). -/
def State.hostLaunch (s : State) : State :=
  let a := s.arg
  let n := a.bytes.length
  if n = 0 ∨ 128 < n ∨ 0x80000 < a.n₁ + n then s.hostRefuse
  else
    let put (m : Memory) (i : Nat) (b : Byte) : Memory := m.write i b
    let s := { s with
      hostError := false, mem := writeLE put s.mem (0x20000000000 + a.n₁) a.value n }
    let full := (a.n₁ + n) / 128
    if a.n₁ < 128 * full then s.post .launchTrigger { EventArg.none with n₂ := full - 1 } else s

/-- An access to BAR2 in a form that reaches it. -/
def hostRegisterOk (off n : Nat) : Bool := n == 8 && off % 8 == 0 && decide (off < 0x10000)

/-- A write to BAR2: BIASCMD and BIASSTAT; every other offset ignores it. -/
def State.hostRegister (s : State) : State :=
  let a := s.arg
  let v := BitVec.ofNat 64 a.value
  if !hostRegisterOk a.n₁ a.bytes.length then s.hostRefuse
  else
    let s := { s with hostError := false }
    if a.n₁ = 0 then
      (if !bitAt v 63 then { s with biascmd := v &&& 0x40000FFFFFFFF000#64 }
       else s.post (if bitAt v 62 then .biasFlipHost else .biasFlipDevice)
        { EventArg.none with w₁ := v })
    else if a.n₁ = 8 then s.post .biasstatErrClear { EventArg.none with w₁ := v }
    else s

/-- Where a byte of the host's memory stands behind the host-memory window (17 R437). -/
def hostAddr (o : Nat) : Nat := 0x38000000000 + o

/-- The host accesses `n` bytes of its own memory: those of one sector of the window. -/
def hostOwnOk (o n : Nat) : Bool :=
  n != 0 && decide (o + n ≤ 0x8000000000) && sectorOf o == sectorOf (o + n - 1)

/-- The host writes its own memory at host physical address `n₁`: a tile that owns the line of the
window gives it up (17 R437). -/
def State.hostOwnWrite (s : State) : State :=
  let a := s.arg
  let n := a.bytes.length
  if !hostOwnOk a.n₁ n ∨ s.lineHeld (lineOf (hostAddr a.n₁)) then s
  else (s.writeMem 0 (hostAddr a.n₁) n a.value).mailboxTriggers [(hostAddr a.n₁, n)]

/-- HOST_MEM_WRITE: a write of the host: CXL.mem at local address `n₁`, with `n₃` = 1 offset `n₁` of
BAR0, with `n₃` = 2 of BAR2, with `n₃` = 3 the host's own memory behind the window. The port is up
once bring-up is done (17 R430, R431, R433, R437, R445). -/
def execHostMemWrite (s : State) : Host.Outcome State Fault Refusal :=
  .next (if s.arg.n₃ = 3 then s.hostOwnWrite
    else if !s.mgmt.up then s
    else match s.arg.n₃ with
      | 0 => s.hostWrite
      | 1 => s.hostLaunch
      | _ => s.hostRegister)

/-- A CXL.mem read of `n₂` bytes at local address `n₁`. With `flag` the host keeps no copy; one that
it keeps may become dirty there. -/
def State.hostRead (s : State) : State :=
  let a := s.arg
  let la := a.n₁
  let line := lineOf la
  if !s.hostMemOk la a.n₂ then s.hostRefuse
  else
    let (s, now) := s.hostReach line
    if !now then s
    else
      let s := { (s.recall line).detect (sectorOf la) with hostError := false }
      let s := if a.flag then s
        else { s with
          snoop := insertNat s.snoop line, snoopClean := removeNat s.snoopClean line }
      { s with hostData := if s.lost (sectorOf la) then none else some (la, s.readMem la a.n₂) }

/-- HOST_MEM_READ: a read by the host of `n₂` bytes; the spaces are those of HOST_MEM_WRITE (17
R430–R433, R437, R445). -/
def execHostMemRead (s : State) : Host.Outcome State Fault Refusal :=
  let a := s.arg
  let answer (s : State) (v : Nat) : State :=
    { s with hostError := false, hostData := some (a.n₁, v) }
  .next (if a.n₃ = 3 then
      (let la := hostAddr a.n₁
       if !hostOwnOk a.n₁ a.n₂ ∨ s.lineHeld (lineOf la) then s
       else
        let s := s.recall (lineOf la)
        answer s (s.readMem la a.n₂))
    else if !s.mgmt.up then s
    else match a.n₃ with
      | 0 => s.hostRead
      | 1 =>
        if a.n₁ % 8 ≠ 0 ∨ 0x80000 ≤ a.n₁ ∨ a.n₂ ≠ 8 then s.hostRefuse
        else answer s (s.readLaunch a.n₁).toNat
      | _ =>
        if !hostRegisterOk a.n₁ a.n₂ then s.hostRefuse
        else answer s
          (if a.n₁ = 0 then s.biascmd.toNat else if a.n₁ = 8 then s.biasStat.toNat else 0))

/-! ### The application complex (17 R435–R438) -/

def State.core_ (s : State) (k : Nat) : AppCore := vget s.cores k ⟨0, false, false, 0, 0, none⟩

def State.modCore (s : State) (k : Nat) (f : AppCore → AppCore) : State :=
  { s with cores := vset s.cores k (f (s.core_ k)) }

/-- The operations of a core. -/
inductive CoreOp where
  | load | store | lr | sc
  | cas (expect : Nat)
  | amo (op : Nat)
  deriving DecidableEq, Repr

/-- The operation reads and writes nothing. -/
def CoreOp.plainRead : CoreOp → Bool
  | .load | .lr => true
  | .store | .sc | .cas _ | .amo _ => false

/-- The operation is an atomic one, which its home executes. -/
def CoreOp.atHome : CoreOp → Bool
  | .cas _ | .amo _ => true
  | .load | .store | .lr | .sc => false

/-- The operation that an event names: code 0 to 4, or 16 and an operation of 08 R191. -/
def coreOp (n expect : Nat) : Option CoreOp :=
  match n with
  | 0 => some .load
  | 1 => some .store
  | 2 => some .lr
  | 3 => some .sc
  | 4 => some (.cas expect)
  | _ => if 16 ≤ n ∧ n ≤ 24 then some (.amo (n - 16)) else none

/-- The sizes of an operation: those of the base, of atomics, and of Zacas (17 R435). -/
def CoreOp.sizeOk (op : CoreOp) (size : Nat) : Bool :=
  match op with
  | .load | .store => size == 1 || size == 2 || size == 4 || size == 8
  | .lr | .sc | .amo _ => size == 4 || size == 8
  | .cas _ => size == 4 || size == 8 || size == 16

/-- The shared cache holds the sector of an address in a line that it owns. -/
def State.appHolds (s : State) (la : Nat) : Bool :=
  match s.appLine (lineOf la) with
  | some l => l.owned && l.valid la
  | none => false

/-- The sector of an address is filled in the line of the shared cache. -/
def State.appFill (s : State) (la : Nat) : State :=
  { s with appCache := s.appCache.map fun l =>
      if l.addr = lineOf la ∧ !l.valid la then l.fillSector la (s.homeSector la) else l }

/-- The shared cache tracks a line without owning it (17 R436). -/
def State.appTrack (s : State) (la : Nat) : State :=
  (if (s.appLine (lineOf la)).isSome then s
   else { s with appCache := CacheLine.bare (lineOf la) 0 false :: s.appCache }).appFill la

/-- A core's write into a line that the shared cache owns or comes to own; while the sector's data
are lost it goes through to the home, which keeps the loss (17 R436, log 24). -/
def State.appStore (s : State) (ctx la size v : Nat) : State :=
  let line := lineOf la
  let s := if s.appHolds la then s else s.detect (sectorOf la)
  if !s.appHolds la && s.lost (sectorOf la) then s.writeMem ctx la size v
  else
    let s := if s.appOwns line then s
      else
        let s := (s.recall line).dropApp line
        { s with appCache := CacheLine.bare line 0 true :: s.appCache }
    let s := (s.appFill la).breakRes line
    { s with appCache := s.appCache.map fun l =>
        if l.addr = line then
          (writeLE (fun (l : CacheLine) i b => l.put i b) l la v size).soil la ctx
        else l }

/-- What an access of a core does at memory that lies on this device: the value it returns and what
it writes. Atomics are executed by the home; with `fill` the shared cache keeps a line of HBM that
a core reads, and owns one that it writes (17 R436, log 6). -/
def State.coreAtHome (s : State) (k ctx la size data : Nat) (op : CoreOp) : State :=
  let keep := regionOf la == .hbm && s.choice.fill
  let hit := s.appHolds la
  let s := if op.atHome then s.bringHome la
    else if s.appOwns (lineOf la) then s
    else s.recall (lineOf la)
  let read := decide (op ≠ .store ∧ op ≠ .sc)
  let s := if read && (op.atHome || !hit) then s.detectRead la else s
  let give (s : State) (v : Nat) : State := s.modCore k fun c => { c with
    fault := false, data := BitVec.ofNat 64 v, upper := BitVec.ofNat 64 (v / 2 ^ 64) }
  let put (s : State) (v : Nat) : State :=
    (if (keep || s.appOwns (lineOf la)) && !op.atHome then s.appStore ctx la size v
     else s.writeMem ctx la size v).mailboxTriggers [(la, size)]
  match if read && (op.atHome || !hit) then s.lostRead la else none with
  | some sec => (s.reportLost ctx (64 * sec)).modCore k fun c => { c with fault := true }
  | none =>
    let old := s.readMem la size
    let s := if keep && op.plainRead then s.appTrack la else s
    match op with
    | .load => give s old
    | .store => (put s data).modCore k fun c => { c with fault := false }
    | .lr => give { s with
        reservations := (k, lineOf la) :: s.reservations.filter fun p => p.1 != k } old
    | .sc =>
      let held := s.reservations.contains (k, lineOf la)
      let s := { s with reservations := s.reservations.filter fun p => p.1 != k }
      if held then give (put s data) 0 else give s 1
    | .cas e => if old = e then give (put s data) old else give s old
    | .amo op => give (put s (amoOp op size ⟨.rne, false⟩ old data).1) old

/-- A window access of the form that 06 R125 forbids, or of a segment in cache use. -/
def State.coreWindowBad (s : State) (la : Nat) (op : CoreOp) : Bool :=
  match regionOf la with
  | .window n off =>
    let w := windowOf off
    !(s.getTile n).scratch (off % 0x80000 / 0x10000) ||
      (decide (1 ≤ w) && (match op with
        | .load => false
        | .store => w != 7
        | .lr | .sc | .cas _ | .amo _ => true))
  | .hbm | .launch _ | .regs _ | .appSram | .appRegs _ | .hostMem | .unmapped => false

/-- An access of a core or of another device cannot be served at its home now: the line is held up,
the host's copy of it has to be snooped, or the forward buffer of the home is full (14 R363, 17
R432, R433). -/
def State.homeWaits (s : State) (la : Nat) (op : CoreOp) : Bool :=
  s.lineHeld (lineOf la) || (if op.plainRead then s.snoopRead la else s.snoopWait la) ||
    decide (64 ≤ s.forwards (s.homeOf (lineOf la)))

/-- What an access of another device does at its home (07 R161, 08 R187, R190). What it returns, and
an error that it finds, go to that device (log 15). -/
def State.foreignAtHome (s : State) (f : Foreign) (op : CoreOp) : State :=
  let s := if op.atHome then s.bringHome f.la else s.recall (lineOf f.la)
  let s := if op = .store then s else s.detectRead f.la
  let old := s.readMem f.la f.size
  let put (v : Nat) : State :=
    let s := s.writeMem f.ctx f.la f.size v
    let s := if f.size = 64 then s.cleanse (sectorOf f.la) else s
    s.mailboxTriggers [(f.la, f.size)]
  if op ≠ .store && (s.lostRead f.la).isSome then s
  else match op with
    | .load | .lr | .sc => s
    | .store => put f.data
    | .cas e => if old = e then put f.data else s
    | .amo k => put (amoOp k f.size ⟨RoundMode.ofCode f.rm, false⟩ old f.data).1

/-- An access of another device to the register space, at the level that it carries: aligned, of 8
bytes, or the 64 bytes of a VST to the launch window (06 R113). -/
def State.foreignRegister (s : State) (f : Foreign) : Option State :=
  let word := f.size == 8 && f.la % 8 == 0
  let vst := f.size == 64 && f.la % 64 == 0 && f.op == 1
  let ok : Bool := match regionOf f.la with
    | .launch _ => word || vst
    | .regs off => word && regLevelOk off f.expect f.ctx
    | .appRegs _ => word && f.expect == 2
    | .hbm | .window _ _ | .appSram | .hostMem | .unmapped => false
  if !ok || decide (1 < f.op) then none
  else some (if f.op = 0 then s
    else (List.range (f.size / 8)).foldl (fun s k =>
      s.writeRegSpace (f.la + 8 * k) f.expect (BitVec.ofNat 64 (f.data / 2 ^ (64 * k)))) s)

/-- A tile of another device becomes the owner of a line of HBM here, or, with operation 3, gives it
up with the data of the sectors that it writes back (13 R336, 14 R363). -/
def State.foreignOwner (s : State) (f : Foreign) : State :=
  let line := lineOf f.la
  if f.op = 2 then
    (if regionOf line ≠ .hbm ∨ s.homeWaits line .store then s
     else { (s.recall line).dropApp line with
       farOwned := (line, f.device) :: s.farOwned.filter fun p => p.1 != line })
  else if !s.farOwned.contains (line, f.device) then s
  else
    let n := if f.la % 64 = 0 ∧ (f.size = 64 ∨ f.size = 128 ∧ f.la = line) then f.size else 0
    let s := if n = 0 then s else s.writeMem f.ctx f.la n f.data
    let s := (List.range (n / 64)).foldl (fun s k => s.cleanse (sectorOf f.la + k)) s
    { s with farOwned := s.farOwned.filter fun p => p.1 != line }.mailboxTriggers [(f.la, n)]

/-- An access of another device (14 R354, R355), of bytes of one sector in memory or a scratchpad,
or of the register space; what holds a line up holds it up too, and the agenda tries again. -/
def State.foreignAccess (s : State) (f : Foreign) : State :=
  let op : Option CoreOp :=
    if f.op = 0 then some .load
    else if f.op = 1 then some .store
    else if f.op = 4 then some (.cas f.expect)
    else if 16 ≤ f.op ∧ f.op ≤ 27 then some (.amo (f.op - 16))
    else none
  let plain : Bool := decide (f.op ≤ 1)
  let back (s : State) : State := s.answerDevice f.device f.tenant false
  if 256 ^ f.size ≤ f.data then s
  else if f.op = 2 ∨ f.op = 3 then back (s.foreignOwner f)
  else match s.foreignRegister f, op with
    | some s, _ => back s
    | none, none => s
    | none, some op =>
      let there : Bool := match regionOf f.la with
        | .hbm | .window _ _ | .appSram | .hostMem => true
        | .launch _ | .regs _ | .appRegs _ | .unmapped => false
      if !there ∨ f.size = 0 ∨ sectorOf f.la ≠ sectorOf (f.la + f.size - 1) then s
      else if !plain && (f.la % f.size != 0 || !(f.size == 4 ||
          (f.size == 8 && f.op != 25 && f.op != 26))) then s
      else if s.coreWindowBad f.la op || s.homeWaits f.la op then s
      else back (s.foreignAtHome f op)

/-- An access of a core of one aligned piece waits for its home. -/
def State.coreWaits (s : State) (pa : Nat) (op : CoreOp) : Bool :=
  s.isLocal pa && (match regionOf (localAddr pa) with
    | .hbm | .appSram | .hostMem | .window _ _ => s.homeWaits (localAddr pa) op
    | .launch _ | .regs _ | .appRegs _ | .unmapped => false)

/-- An access of a core to a physical address, with the CTXID of its mode (17 R436–R438). An access
to a line that is held up waits. -/
def State.coreAccess (s : State) (k ctx pa size data : Nat) (op : CoreOp) : State :=
  let la := localAddr pa
  let word := BitVec.ofNat 64 data
  let fault : State := s.modCore k fun c => { c with fault := true }
  let free (r : Region) : Bool := match r with
    | .appSram | .appRegs _ => true
    | .hbm | .window _ _ | .launch _ | .regs _ | .hostMem | .unmapped => false
  if s.unmappedAt pa || (ctx == 0 && !(s.isLocal pa && free (regionOf la))) then fault
  else if !s.isLocal pa then
    { s with fresh := s.fresh + 1 }.modCore k fun c => { c with
      fault := false, data := Config.remoteWord s.fresh pa, upper := Config.remoteWord s.fresh (pa + 8) }
  else match regionOf la with
    | .unmapped | .regs _ => fault
    | .launch off =>
      if size ≠ 8 then fault
      else match op with
        | .load => s.modCore k fun c => { c with fault := false, data := s.readLaunch off }
        | .store => (s.writeRegSpace la 0 word).modCore k fun c => { c with fault := false }
        | .lr | .sc | .cas _ | .amo _ => fault
    | .appRegs off =>
      if size ≠ 8 then fault
      else match op with
        | .load => s.modCore k fun c => { c with fault := false, data := s.readAppReg off }
        | .store => (s.writeRegSpace la 0 word).modCore k fun c => { c with fault := false }
        | .lr | .sc | .cas _ | .amo _ => fault
    | .hbm | .appSram | .hostMem | .window _ _ =>
      if s.coreWindowBad la op then fault
      else if s.coreWaits pa op then s
      else s.coreAtHome k ctx la size (data % 256 ^ size) op

/-- A misaligned access of a core: a load or a store is performed byte by byte, an atomic raises an
access fault. The profiles that 17 R435 names give this (PRESUMED, log 52). -/
def State.coreMisaligned (s : State) (k ctx pa size data : Nat) (op : CoreOp) : State :=
  let bytes := List.range size
  if op ≠ .load ∧ op ≠ .store then s.modCore k fun c => { c with fault := true }
  else if bytes.any fun i => s.coreWaits (pa + i) op then s
  else
    let r := bytes.foldl (fun (p : State × Nat) i =>
      if (p.1.core_ k).fault then p
      else
        let t := p.1.coreAccess k ctx (pa + i) 1 (data / 256 ^ i) op
        (t, p.2 + 256 ^ i * (t.core_ k).data.toNat)) (s.modCore k fun c => { c with fault := false }, 0)
    r.1.modCore k fun c => if c.fault ∨ op = .store then c else { c with data := BitVec.ofNat 64 r.2 }

/-- CORE_DEVICE_ACCESS: core `n₁`, with V = 1 where `flag` is set, accesses physical address `n₂`:
`n₃` names the operation, `w₁` is its data, `w₂` its size in bytes and `w₃` the value that a
compare-and-swap expects; for one of 16 bytes these stand in `vec`, the data first (17
R435–R438). -/
def execCoreDeviceAccess (s : State) : Host.Outcome State Fault Refusal :=
  let a := s.arg
  let size := a.w₂.toNat
  let wide (lo : Nat) : Nat := (slice a.vec lo 128).toNat
  let expect := if size = 16 then wide 128 else a.w₃.toNat
  let data := if size = 16 then wide 0 else a.w₁.toNat
  .next (match coreOp a.n₃ expect with
    | none => s
    | some op =>
      if 32 ≤ a.n₁ ∨ 2 ^ 56 < a.n₂ + size ∨ !op.sizeOk size then s
      else
        let c := s.core_ a.n₁
        let ctx := if a.flag then (slice c.dctx 0 12).toNat else (slice c.dctx 16 12).toNat
        let s := s.modCore a.n₁ fun c => { c with virt := a.flag }
        if a.n₂ % size = 0 then s.coreAccess a.n₁ ctx a.n₂ size data op
        else s.coreMisaligned a.n₁ ctx a.n₂ size data op)

/-- DCTX: HS mode of core `n₁` writes its DCTX (17 R438). -/
def execDctx (s : State) : Host.Outcome State Fault Refusal :=
  .next (s.modCore s.arg.n₁ fun c => { c with dctx := s.arg.w₁ &&& 0xFFF0FFF#64 })

/-! ### Management (17 R440–R443) -/

def State.unit_ (s : State) (k : Nat) : Firmware := vget s.mgmt.firmware k Firmware.reset

def State.modUnit (s : State) (k : Nat) (f : Firmware → Firmware) : State :=
  { s with mgmt := { s.mgmt with firmware := vset s.mgmt.firmware k (f (s.unit_ k)) } }

/-- The port answers. -/
def State.answer (s : State) (v : Nat) : State :=
  { s with mgmt := { s.mgmt with reports := v :: s.mgmt.reports } }

/-- PLDM_FW_UPDATE: the bytes of the event are written as the inactive image of unit `n₁` and
verified; the answer is 1, or 0 where the check fails (17 R443). An activation under way uses both
images, and the update is then refused with 0. -/
def execPldmFwUpdate (s : State) : Host.Outcome State Fault Refusal :=
  let a := s.arg
  let ok := Config.signatureOk a.bytes
  let write (f : Firmware) : Firmware :=
    if f.activeB then { f with imageA := a.bytes, verified := ok }
    else { f with imageB := a.bytes, verified := ok }
  .next (if 6 ≤ a.n₁ then s
    else if (s.unit_ a.n₁).pending.isSome then s.answer 0
    else (s.modUnit a.n₁ write).answer (if ok then 1 else 0))

/-- A launch of a die is PARSING: one whose record names the die, or a graph, whose nodes may (15
R375, 17 R443). -/
def State.parsingOn (s : State) (die : Nat) : Bool :=
  s.parsing.any fun p => recKind p.words != 1 || (recDies p.words).contains die

/-- FW_ACTIVATE: the verified image of unit `n₁` becomes the active one, that of a dispatcher when
no launch of its die is PARSING (17 R443). -/
def execFwActivate (s : State) : Host.Outcome State Fault Refusal :=
  let f := s.unit_ s.arg.n₁
  .next (if !f.verified || f.pending.isSome || (decide (s.arg.n₁ < 4) && s.parsingOn s.arg.n₁) then s
    else s.modUnit s.arg.n₁ fun f => { f with
      activeB := !f.activeB, verified := false, ready := false, pending := some s.gtc })

/-- An activation of unit `k` stands since 10 s or more: its image is abandoned, and the previous
one restored (17 R443). -/
def State.lateImage (s : State) (k : Nat) : Option State :=
  match (s.unit_ k).pending with
  | none => none
  | some t =>
    if s.gtc < t + 10000000000 then none
    else some (s.modUnit k fun f => { f with
      activeB := !f.activeB, verified := false, ready := true, pending := none })

/-- FW_ACTIVATE_TIMEOUT: an image that has not reported ready within 10 s is abandoned (17 R443). -/
def execFwActivateTimeout (s : State) : Host.Outcome State Fault Refusal :=
  .next ((s.lateImage s.arg.n₁).getD s)

/-- FIRMWARE_READY: the active image of unit `n₁` reports ready; a report later than 10 s after its
activation finds it abandoned (17 R443, R445). -/
def execFirmwareReady (s : State) : Host.Outcome State Fault Refusal :=
  .next (if 6 ≤ s.arg.n₁ then s
    else (s.lateImage s.arg.n₁).getD
      (s.modUnit s.arg.n₁ fun f => { f with ready := true, pending := none }))

/-- The tiles that a spare serves (01 R14). -/
def State.spareMap (s : State) : List Nat :=
  (s.tiles.filter fun p => decide (p.1 < 2048) && p.2.physical == 32).map (·.1)

/-- The image that a measurement covers (17 R441). -/
def State.measuredImage (s : State) (k : Nat) : Option (List Byte) :=
  let active (u : Nat) : List Byte :=
    let f := s.unit_ u
    if f.activeB then f.imageB else f.imageA
  match k with
  | 1 => some Config.bootRom
  | 2 => some (active 4)
  | 3 => some (active 0)
  | 4 => some (active 1)
  | 5 => some (active 2)
  | 6 => some (active 3)
  | 7 => some (active 5)
  | 8 => some (Config.serviceImage s.spareMap s.service.retired)
  | _ => none

/-- SPDM_MEASUREMENT: the SHA-512 digest of measurement `n₁` (17 R441). -/
def execSpdmMeasurement (s : State) : Host.Outcome State Fault Refusal :=
  .next (match s.measuredImage s.arg.n₁ with
    | none => s
    | some m => s.answer (sha512 m))

/-- Valid records in the banks of a class (17 R442). -/
def State.validRecords (s : State) (cls : Nat) : Nat :=
  (s.banks.filter fun b => b.bank / 4096 == cls && bitAt b.w0 8).length

/-- PLDM_SENSOR_READ: sensor `n₁`, whose physical quantity stands at `n₂`: die and stack
temperatures, package power and coolant inlet; from 256 on, the valid records of a class of error
banks (17 R442). -/
def execPldmSensorRead (s : State) : Host.Outcome State Fault Refusal :=
  let a := s.arg
  .next (if 256 ≤ a.n₁ then s.answer (s.validRecords (a.n₁ - 256))
    else
      let values := putKey s.mgmt.sensors a.n₁ a.n₂
      { s with mgmt := { s.mgmt with sensors := values } }.answer a.n₂)

/-- PLDM_POWER_CAP: the package power cap, 800 W to 2,400 W (17 R442). -/
def execPldmPowerCap (s : State) : Host.Outcome State Fault Refusal :=
  .next (if 800 ≤ s.arg.n₁ ∧ s.arg.n₁ ≤ 2400 then
      { s with mgmt := { s.mgmt with powerCap := s.arg.n₁ } }
    else s)

/-! ### Live service (01 R14, R21, 17 R444) -/

/-- The spare of a tile's cluster is in use. -/
def State.spareUsed (s : State) (n : Nat) : Bool := s.service.sparesUsed.contains (clusterOf n)

/-- TILE_SPARE_REMAP: a tile that no gang occupies is served by its cluster's spare from now on
(01 R14). -/
def execTileSpareRemap (s : State) : Host.Outcome State Fault Refusal :=
  let n := s.arg.tile
  .next (if 2048 ≤ n ∨ s.spareUsed n ∨ (s.getTile n).place.isSome ∨
        s.gangs.any fun g => g.tiles.contains n then s
    else
      let used := insertNat s.service.sparesUsed (clusterOf n)
      { s with service := { s.service with sparesUsed := used } }.modTile n fun t =>
        { t with physical := 32, placeable := true })

/-- TILE_LOSS: a cluster loses the tile; with its spare in use the tile is placed no more
(01 R14). -/
def execTileLoss (s : State) : Host.Outcome State Fault Refusal :=
  let n := s.arg.tile
  .next (if 2048 ≤ n ∨ !s.spareUsed n then s
    else s.modTile n fun t => { t with placeable := false })

/-- HBM_CHANNEL_SPARE: line `n₂` of channel `n₁` is being copied into spare rows, and accesses to it
wait; with `flag` the copy of the channel is complete (17 R444). -/
def execHbmChannelSpare (s : State) : Host.Outcome State Fault Refusal :=
  let a := s.arg
  .next (if a.flag then
      { s with service := { s.service with
        sparing := none, spared := insertNat s.service.spared a.n₁ } }
    else
      let s := { s with service := { s.service with sparing := some (a.n₁, lineOf a.n₂) } }
      if s.choice.defer then s
      else s.post .hbmChannelSpare { EventArg.none with n₁ := a.n₁, flag := true })

/-- FAILED_DEVICE_REMOVAL: device `n₁` is out of the domain and counts as absent (17 R444, 01
R21). -/
def execFailedDeviceRemoval (s : State) : Host.Outcome State Fault Refusal :=
  .next { s with peers := s.peers.filter fun d => d != s.arg.n₁ }

/-! ### Bring-up, power and cooling (17 R445, R446) -/

/-- The device ids in the bytes of an event, two bytes each. -/
def EventArg.ids (a : EventArg) : List Nat :=
  (List.range (a.bytes.length / 2)).map fun k => readLE (fun i => a.bytes.getD i 0) (2 * k) 2

/-- POWER_ON_BRINGUP (17 R445): the management controller verifies its own image, and goes no
further where that fails, with `flag`. The device takes id `n₁` in a domain of the devices in
`bytes`, whose time `n₂` GTC takes, and id 0 in no domain (01 R20, 16 R402); the words 0 to 3 of
`vec` are RESETVEC of each die; the harts of the dies are released, but for those in `n₃` whose
bring-up failed; then the host port comes up. -/
def execPowerOnBringup (s : State) : Host.Outcome State Fault Refusal :=
  let a := s.arg
  let failed := (List.range 4).filter fun k => a.n₃.testBit k
  let peers := a.ids.filter fun d => d != a.n₁ && decide (d < 0xC00)
  .next (if s.mgmt.up ∨ 0xC00 ≤ a.n₁ ∨ a.flag then s
    else
      let s := { s with
        device := if peers.isEmpty then 0 else a.n₁
        peers := peers
        gtc := if peers.isEmpty then s.gtc else a.n₂
        resetvec := Vector.ofFn fun k => slice a.vec (64 * k.val) 64
        mgmt := { s.mgmt with
          failedDies := failed, reports := failed ++ s.mgmt.reports
          powered := Vector.ofFn fun k => !(failed.contains k.val), up := true } }
      (List.range 2048).foldl (fun s n => if failed.contains (dieOf n) then s else s.release n) s)

/-- THERMAL_THROTTLE: die `n₁` has reached 105 °C, or the package exceeds the cap: its arrays insert
idle periods (17 R446). -/
def execThermalThrottle (s : State) : Host.Outcome State Fault Refusal :=
  .next { s with mgmt := { s.mgmt with throttled := vset s.mgmt.throttled s.arg.n₁ true } }

/-- THERMAL_CONDITION_CLEARS: the idle periods of die `n₁` end (17 R446). -/
def execThermalConditionClears (s : State) : Host.Outcome State Fault Refusal :=
  .next { s with mgmt := { s.mgmt with throttled := vset s.mgmt.throttled s.arg.n₁ false } }

/-- What the base die holds, and the stacks of memory, stand as they do in `old`: the host port with
its bias table, the application complex with its SRAM and cache, the base die's own error banks, and
the domain's ids and time (01 R9, 17 R446, log 22). -/
def State.keepBase (s old : State) : State :=
  { s with
    gtc := old.gtc, device := old.device, peers := old.peers
    banks := old.banks.filter fun b => b.bank / 4096 == 6
    hostBias := old.hostBias, snoop := old.snoop, snoopClean := old.snoopClean, flips := old.flips
    biascmd := old.biascmd, biasErr := old.biasErr, biasDone := old.biasDone, msix := old.msix
    hostData := old.hostData, hostError := old.hostError
    cores := old.cores, reservations := old.reservations, appRegs := old.appRegs
    appCache := old.appCache }

/-- THERMAL_SHUTDOWN: at 115 °C the compute dies lose power; the management controller and the base
die stay (17 R446, log 22). -/
def execThermalShutdown (s : State) : Host.Outcome State Fault Refusal :=
  let t := s.resetDevice.keepBase s
  .next { t with mgmt := { t.mgmt with
    powered := Vector.replicate 4 false, throttled := Vector.replicate 4 false, up := false } }

end Sys2Proof.Machine
end

