-- ==== Sys2Proof/Machine/Dispatch.lean ====
section
/-! DEFINITION. The one match that sends every instruction and every step to its meaning. -/
namespace Sys2Proof.Machine

/-- The effect of one instruction, or of one step of another agent, on the state. -/
def exec (i : Instr) (s : State) : Host.Outcome State Fault Refusal :=
  match i with
  | .add st d a b => Sys2Proof.Machine.execAdd st d a b s
  | .sub st d a b => Sys2Proof.Machine.execSub st d a b s
  | .and st d a b => Sys2Proof.Machine.execAnd st d a b s
  | .or st d a b => Sys2Proof.Machine.execOr st d a b s
  | .xor st d a b => Sys2Proof.Machine.execXor st d a b s
  | .andn st d a b => Sys2Proof.Machine.execAndn st d a b s
  | .orn st d a b => Sys2Proof.Machine.execOrn st d a b s
  | .sll st d a b => Sys2Proof.Machine.execSll st d a b s
  | .srl st d a b => Sys2Proof.Machine.execSrl st d a b s
  | .sra st d a b => Sys2Proof.Machine.execSra st d a b s
  | .rol st d a b => Sys2Proof.Machine.execRol st d a b s
  | .ror st d a b => Sys2Proof.Machine.execRor st d a b s
  | .slt st d a b => Sys2Proof.Machine.execSlt st d a b s
  | .sltu st d a b => Sys2Proof.Machine.execSltu st d a b s
  | .min st d a b => Sys2Proof.Machine.execMin st d a b s
  | .max st d a b => Sys2Proof.Machine.execMax st d a b s
  | .minu st d a b => Sys2Proof.Machine.execMinu st d a b s
  | .maxu st d a b => Sys2Proof.Machine.execMaxu st d a b s
  | .mul st d a b => Sys2Proof.Machine.execMul st d a b s
  | .mulh st d a b => Sys2Proof.Machine.execMulh st d a b s
  | .mulhu st d a b => Sys2Proof.Machine.execMulhu st d a b s
  | .mulhsu st d a b => Sys2Proof.Machine.execMulhsu st d a b s
  | .div st d a b => Sys2Proof.Machine.execDiv st d a b s
  | .divu st d a b => Sys2Proof.Machine.execDivu st d a b s
  | .rem st d a b => Sys2Proof.Machine.execRem st d a b s
  | .remu st d a b => Sys2Proof.Machine.execRemu st d a b s
  | .clz st d a => Sys2Proof.Machine.execClz st d a s
  | .ctz st d a => Sys2Proof.Machine.execCtz st d a s
  | .cpop st d a => Sys2Proof.Machine.execCpop st d a s
  | .sextb st d a => Sys2Proof.Machine.execSextb st d a s
  | .sexth st d a => Sys2Proof.Machine.execSexth st d a s
  | .sextw st d a => Sys2Proof.Machine.execSextw st d a s
  | .zextw st d a => Sys2Proof.Machine.execZextw st d a s
  | .shadd1 st d a b => Sys2Proof.Machine.execShadd1 st d a b s
  | .shadd2 st d a b => Sys2Proof.Machine.execShadd2 st d a b s
  | .shadd3 st d a b => Sys2Proof.Machine.execShadd3 st d a b s
  | .addi st d a imm => Sys2Proof.Machine.execAddi st d a imm s
  | .andi st d a imm => Sys2Proof.Machine.execAndi st d a imm s
  | .ori st d a imm => Sys2Proof.Machine.execOri st d a imm s
  | .xori st d a imm => Sys2Proof.Machine.execXori st d a imm s
  | .slti st d a imm => Sys2Proof.Machine.execSlti st d a imm s
  | .sltiu st d a imm => Sys2Proof.Machine.execSltiu st d a imm s
  | .slli st d a n => Sys2Proof.Machine.execSlli st d a n s
  | .srli st d a n => Sys2Proof.Machine.execSrli st d a n s
  | .srai st d a n => Sys2Proof.Machine.execSrai st d a n s
  | .rori st d a n => Sys2Proof.Machine.execRori st d a n s
  | .ldhi st d imm => Sys2Proof.Machine.execLdhi st d imm s
  | .addpc st d imm => Sys2Proof.Machine.execAddpc st d imm s
  | .beq st a b o => Sys2Proof.Machine.execBeq st a b o s
  | .bne st a b o => Sys2Proof.Machine.execBne st a b o s
  | .blt st a b o => Sys2Proof.Machine.execBlt st a b o s
  | .bge st a b o => Sys2Proof.Machine.execBge st a b o s
  | .bltu st a b o => Sys2Proof.Machine.execBltu st a b o s
  | .bgeu st a b o => Sys2Proof.Machine.execBgeu st a b o s
  | .jal st d o => Sys2Proof.Machine.execJal st d o s
  | .jalr st d a imm => Sys2Proof.Machine.execJalr st d a imm s
  | .frame st n c t x y z => Sys2Proof.Machine.execFrame st n c t x y z s
  | .bqt st o => Sys2Proof.Machine.execBqt st o s
  | .bqf st o => Sys2Proof.Machine.execBqf st o s
  | .bqpush st a t => Sys2Proof.Machine.execBqpush st a t s
  | .qld st n a imm => Sys2Proof.Machine.execQld st n a imm s
  | .qst st n a imm => Sys2Proof.Machine.execQst st n a imm s
  | .qbind st a => Sys2Proof.Machine.execQbind st a s
  | .qunbind st a => Sys2Proof.Machine.execQunbind st a s
  | .qstart st u a b => Sys2Proof.Machine.execQstart st u a b s
  | .qstop st u => Sys2Proof.Machine.execQstop st u s
  | .qwait st u => Sys2Proof.Machine.execQwait st u s
  | .lb st d a imm => Sys2Proof.Machine.execLb st d a imm s
  | .lh st d a imm => Sys2Proof.Machine.execLh st d a imm s
  | .lw st d a imm => Sys2Proof.Machine.execLw st d a imm s
  | .ld st d a imm => Sys2Proof.Machine.execLd st d a imm s
  | .lbu st d a imm => Sys2Proof.Machine.execLbu st d a imm s
  | .lhu st d a imm => Sys2Proof.Machine.execLhu st d a imm s
  | .lwu st d a imm => Sys2Proof.Machine.execLwu st d a imm s
  | .sb st b a imm => Sys2Proof.Machine.execSb st b a imm s
  | .sh st b a imm => Sys2Proof.Machine.execSh st b a imm s
  | .sw st b a imm => Sys2Proof.Machine.execSw st b a imm s
  | .sd st b a imm => Sys2Proof.Machine.execSd st b a imm s
  | .ldw st d a imm => Sys2Proof.Machine.execLdw st d a imm s
  | .ldwe st d a imm => Sys2Proof.Machine.execLdwe st d a imm s
  | .stw st b a imm => Sys2Proof.Machine.execStw st b a imm s
  | .stf st b a imm => Sys2Proof.Machine.execStf st b a imm s
  | .ldf st d a imm => Sys2Proof.Machine.execLdf st d a imm s
  | .vld st d a m o => Sys2Proof.Machine.execVld st d a m o s
  | .vst st d a m o => Sys2Proof.Machine.execVst st d a m o s
  | .vlds st d a b m w => Sys2Proof.Machine.execVlds st d a b m w s
  | .vsts st d a b m w => Sys2Proof.Machine.execVsts st d a b m w s
  | .vgath st d a b m w => Sys2Proof.Machine.execVgath st d a b m w s
  | .vscat st d a b m w => Sys2Proof.Machine.execVscat st d a b m w s
  | .tld st t a b => Sys2Proof.Machine.execTld st t a b s
  | .tst st t a b => Sys2Proof.Machine.execTst st t a b s
  | .cpref st a => Sys2Proof.Machine.execCpref st a s
  | .cclean st a => Sys2Proof.Machine.execCclean st a s
  | .cflush st a => Sys2Proof.Machine.execCflush st a s
  | .cinv st a => Sys2Proof.Machine.execCinv st a s
  | .feget st d a => Sys2Proof.Machine.execFeget st d a s
  | .feset st a b => Sys2Proof.Machine.execFeset st a b s
  | .fence st q r c u => Sys2Proof.Machine.execFence st q r c u s
  | .fencei => Sys2Proof.Machine.execFencei s
  | .fencem st a b => Sys2Proof.Machine.execFencem st a b s
  | .fencea => Sys2Proof.Machine.execFencea s
  | .amoadd st d a b w o => Sys2Proof.Machine.execAmoadd st d a b w o s
  | .amoand st d a b w o => Sys2Proof.Machine.execAmoand st d a b w o s
  | .amoor st d a b w o => Sys2Proof.Machine.execAmoor st d a b w o s
  | .amoxor st d a b w o => Sys2Proof.Machine.execAmoxor st d a b w o s
  | .amomin st d a b w o => Sys2Proof.Machine.execAmomin st d a b w o s
  | .amomax st d a b w o => Sys2Proof.Machine.execAmomax st d a b w o s
  | .amominu st d a b w o => Sys2Proof.Machine.execAmominu st d a b w o s
  | .amomaxu st d a b w o => Sys2Proof.Machine.execAmomaxu st d a b w o s
  | .amoswap st d a b w o => Sys2Proof.Machine.execAmoswap st d a b w o s
  | .amofadd st d a b o => Sys2Proof.Machine.execAmofadd st d a b o s
  | .amofmax st d a b o => Sys2Proof.Machine.execAmofmax st d a b o s
  | .amoincs st d a b w o => Sys2Proof.Machine.execAmoincs st d a b w o s
  | .amocas st d a b w o => Sys2Proof.Machine.execAmocas st d a b w o s
  | .etcall st d a b o imm => Sys2Proof.Machine.execEtcall st d a b o imm s
  | .etinst st d a b => Sys2Proof.Machine.execEtinst st d a b s
  | .etdrop st b => Sys2Proof.Machine.execEtdrop st b s
  | .etflush st => Sys2Proof.Machine.execEtflush st s
  | .etquery st d b => Sys2Proof.Machine.execEtquery st d b s
  | .vadd st d a b m t => Sys2Proof.Machine.execVadd st d a b m t s
  | .vsub st d a b m t => Sys2Proof.Machine.execVsub st d a b m t s
  | .vmul st d a b m t => Sys2Proof.Machine.execVmul st d a b m t s
  | .vmulh st d a b m t => Sys2Proof.Machine.execVmulh st d a b m t s
  | .vfma st d a b m t => Sys2Proof.Machine.execVfma st d a b m t s
  | .vfms st d a b m t => Sys2Proof.Machine.execVfms st d a b m t s
  | .vfnma st d a b m t => Sys2Proof.Machine.execVfnma st d a b m t s
  | .vdiv st d a b m t => Sys2Proof.Machine.execVdiv st d a b m t s
  | .vsqrt st d a m t => Sys2Proof.Machine.execVsqrt st d a m t s
  | .vmin st d a b m t => Sys2Proof.Machine.execVmin st d a b m t s
  | .vmax st d a b m t => Sys2Proof.Machine.execVmax st d a b m t s
  | .vabs st d a m t => Sys2Proof.Machine.execVabs st d a m t s
  | .vneg st d a m t => Sys2Proof.Machine.execVneg st d a m t s
  | .vand st d a b m t => Sys2Proof.Machine.execVand st d a b m t s
  | .vor st d a b m t => Sys2Proof.Machine.execVor st d a b m t s
  | .vxor st d a b m t => Sys2Proof.Machine.execVxor st d a b m t s
  | .vsll st d a b m t => Sys2Proof.Machine.execVsll st d a b m t s
  | .vsrl st d a b m t => Sys2Proof.Machine.execVsrl st d a b m t s
  | .vsra st d a b m t => Sys2Proof.Machine.execVsra st d a b m t s
  | .vsadd st d a b m t => Sys2Proof.Machine.execVsadd st d a b m t s
  | .vssub st d a b m t => Sys2Proof.Machine.execVssub st d a b m t s
  | .vcmpeq st d a b m t => Sys2Proof.Machine.execVcmpeq st d a b m t s
  | .vcmplt st d a b m t => Sys2Proof.Machine.execVcmplt st d a b m t s
  | .vcmple st d a b m t => Sys2Proof.Machine.execVcmple st d a b m t s
  | .vsel st d a b m t => Sys2Proof.Machine.execVsel st d a b m t s
  | .vmv st d a m t => Sys2Proof.Machine.execVmv st d a m t s
  | .vbcast st d a m t => Sys2Proof.Machine.execVbcast st d a m t s
  | .vmvx st d a b t => Sys2Proof.Machine.execVmvx st d a b t s
  | .vslideup st d a b m t => Sys2Proof.Machine.execVslideup st d a b m t s
  | .vslidedn st d a b m t => Sys2Proof.Machine.execVslidedn st d a b m t s
  | .vperm st d a b m t => Sys2Proof.Machine.execVperm st d a b m t s
  | .vcompress st d a m t => Sys2Proof.Machine.execVcompress st d a m t s
  | .vexpand st d a m t => Sys2Proof.Machine.execVexpand st d a m t s
  | .vredsum st d a b m t => Sys2Proof.Machine.execVredsum st d a b m t s
  | .vredmax st d a b m t => Sys2Proof.Machine.execVredmax st d a b m t s
  | .vredmin st d a b m t => Sys2Proof.Machine.execVredmin st d a b m t s
  | .vredq st d a c m t => Sys2Proof.Machine.execVredq st d a c m t s
  | .vdot4 st d a b m t => Sys2Proof.Machine.execVdot4 st d a b m t s
  | .vexp2 st d a m t => Sys2Proof.Machine.execVexp2 st d a m t s
  | .vlog2 st d a m t => Sys2Proof.Machine.execVlog2 st d a m t s
  | .vrcp st d a m t => Sys2Proof.Machine.execVrcp st d a m t s
  | .vrsq st d a m t => Sys2Proof.Machine.execVrsq st d a m t s
  | .mand st d a b => Sys2Proof.Machine.execMand st d a b s
  | .mor st d a b => Sys2Proof.Machine.execMor st d a b s
  | .mxor st d a b => Sys2Proof.Machine.execMxor st d a b s
  | .mnot st d a => Sys2Proof.Machine.execMnot st d a s
  | .mcnt st d a => Sys2Proof.Machine.execMcnt st d a s
  | .mfirst st d a => Sys2Proof.Machine.execMfirst st d a s
  | .mset st d a => Sys2Proof.Machine.execMset st d a s
  | .mget st d a => Sys2Proof.Machine.execMget st d a s
  | .vcvt st d a e m t => Sys2Proof.Machine.execVcvt st d a e m t s
  | .vcvtn st d a e m t => Sys2Proof.Machine.execVcvtn st d a e m t s
  | .vcvtwl st d a t m => Sys2Proof.Machine.execVcvtwl st d a t m s
  | .vcvtwh st d a t m => Sys2Proof.Machine.execVcvtwh st d a t m s
  | .vplane st d a => Sys2Proof.Machine.execVplane st d a s
  | .vunplane st d a => Sys2Proof.Machine.execVunplane st d a s
  | .vscaleb st d a b t => Sys2Proof.Machine.execVscaleb st d a b t s
  | .vclass st d a t => Sys2Proof.Machine.execVclass st d a t s
  | .setshape st d a k => Sys2Proof.Machine.execSetshape st d a k s
  | .mgang st a => Sys2Proof.Machine.execMgang st a s
  | .mma st b a c => Sys2Proof.Machine.execMma st b a c s
  | .mmag st b a c v => Sys2Proof.Machine.execMmag st b a c v s
  | .mdrain st b t z => Sys2Proof.Machine.execMdrain st b t z s
  | .mzero st b => Sys2Proof.Machine.execMzero st b s
  | .mpsum st d b r q => Sys2Proof.Machine.execMpsum st d b r q s
  | .mcfg st a => Sys2Proof.Machine.execMcfg st a s
  | .mscale st c k => Sys2Proof.Machine.execMscale st c k s
  | .tmov st d a => Sys2Proof.Machine.execTmov st d a s
  | .tmovv st v r k x => Sys2Proof.Machine.execTmovv st v r k x s
  | .ttrans st d z a => Sys2Proof.Machine.execTtrans st d z a s
  | .mstatr st d a => Sys2Proof.Machine.execMstatr st d a s
  | .tclr st k => Sys2Proof.Machine.execTclr st k s
  | .cpy st d a => Sys2Proof.Machine.execCpy st d a s
  | .cpyd st d a => Sys2Proof.Machine.execCpyd st d a s
  | .cpyfill st d a => Sys2Proof.Machine.execCpyfill st d a s
  | .rrot st d a b => Sys2Proof.Machine.execRrot st d a b s
  | .allred st d a => Sys2Proof.Machine.execAllred st d a s
  | .bcastc st d a => Sys2Proof.Machine.execBcastc st d a s
  | .inbdq st d => Sys2Proof.Machine.execInbdq st d s
  | .inbpeek st d => Sys2Proof.Machine.execInbpeek st d s
  | .inbcfg st a b => Sys2Proof.Machine.execInbcfg st a b s
  | .uiret => Sys2Proof.Machine.execUiret s
  | .bcfg st d a => Sys2Proof.Machine.execBcfg st d a s
  | .broot st d a => Sys2Proof.Machine.execBroot st d a s
  | .bdesc st d a => Sys2Proof.Machine.execBdesc st d a s
  | .bexp st d a => Sys2Proof.Machine.execBexp st d a s
  | .bback st d a => Sys2Proof.Machine.execBback st d a s
  | .bpool st d a => Sys2Proof.Machine.execBpool st d a s
  | .breroot st d a => Sys2Proof.Machine.execBreroot st d a s
  | .bstat st d a b => Sys2Proof.Machine.execBstat st d a b s
  | .bdrop st d a => Sys2Proof.Machine.execBdrop st d a s
  | .sxmit st a h n => Sys2Proof.Machine.execSxmit st a h n s
  | .ssel st a h n => Sys2Proof.Machine.execSsel st a h n s
  | .csign st a => Sys2Proof.Machine.execCsign st a s
  | .cdiss => Sys2Proof.Machine.execCdiss s
  | .sstep => Sys2Proof.Machine.execSstep s
  | .bardom st a b => Sys2Proof.Machine.execBardom st a b s
  | .bar st a => Sys2Proof.Machine.execBar st a s
  | .snap st d a => Sys2Proof.Machine.execSnap st d a s
  | .cstat st d a => Sys2Proof.Machine.execCstat st d a s
  | .sxend => Sys2Proof.Machine.execSxend s
  | .send st a b => Sys2Proof.Machine.execSend st a b s
  | .sendv st a b => Sys2Proof.Machine.execSendv st a b s
  | .recv st d a => Sys2Proof.Machine.execRecv st d a s
  | .recvv st d a => Sys2Proof.Machine.execRecvv st d a s
  | .recvtry st d a => Sys2Proof.Machine.execRecvtry st d a s
  | .rld st a b => Sys2Proof.Machine.execRld st a b s
  | .rst st v a b => Sys2Proof.Machine.execRst st v a b s
  | .chopen st a => Sys2Proof.Machine.execChopen st a s
  | .chclose st d a => Sys2Proof.Machine.execChclose st d a s
  | .spawn st d a => Sys2Proof.Machine.execSpawn st d a s
  | .taskq st a => Sys2Proof.Machine.execTaskq st a s
  | .taskend st => Sys2Proof.Machine.execTaskend st s
  | .gdone st => Sys2Proof.Machine.execGdone st s
  | .mboxreg st d a b => Sys2Proof.Machine.execMboxreg st d a b s
  | .ecall => Sys2Proof.Machine.execEcall s
  | .ebrk => Sys2Proof.Machine.execEbrk s
  | .eret => Sys2Proof.Machine.execEret s
  | .wfi => Sys2Proof.Machine.execWfi s
  | .crr st d n => Sys2Proof.Machine.execCrr st d n s
  | .crw st d n => Sys2Proof.Machine.execCrw st d n s
  | .crset st d n => Sys2Proof.Machine.execCrset st d n s
  | .crclr st d n => Sys2Proof.Machine.execCrclr st d n s
  | .tlbinv st a b => Sys2Proof.Machine.execTlbinv st a b s
  | .pause st => Sys2Proof.Machine.execPause st s
  | .halt => Sys2Proof.Machine.execHalt s
  | .pgate st d a => Sys2Proof.Machine.execPgate st d a s
  | .ctxsave st d a => Sys2Proof.Machine.execCtxsave st d a s
  | .ctxload st a => Sys2Proof.Machine.execCtxload st a s
  | .errrd st d a => Sys2Proof.Machine.execErrrd st d a s
  | .deviceReset => Sys2Proof.Machine.execDeviceReset s
  | .powerOnBringup => Sys2Proof.Machine.execPowerOnBringup s
  | .hartRelease => Sys2Proof.Machine.execHartRelease s
  | .interruptEntry => Sys2Proof.Machine.execInterruptEntry s
  | .userInterruptEntry => Sys2Proof.Machine.execUserInterruptEntry s
  | .deferredTrap => Sys2Proof.Machine.execDeferredTrap s
  | .timerExpiry => Sys2Proof.Machine.execTimerExpiry s
  | .qdeadlk => Sys2Proof.Machine.execQdeadlk s
  | .loadResponse => Sys2Proof.Machine.execLoadResponse s
  | .amoResponse => Sys2Proof.Machine.execAmoResponse s
  | .homeRequest => Sys2Proof.Machine.execHomeRequest s
  | .forwardedRequest => Sys2Proof.Machine.execForwardedRequest s
  | .writeAck => Sys2Proof.Machine.execWriteAck s
  | .amoAtHome => Sys2Proof.Machine.execAmoAtHome s
  | .etchCallExec => Sys2Proof.Machine.execEtchCallExec s
  | .parkedReplay => Sys2Proof.Machine.execParkedReplay s
  | .routineFetchDone => Sys2Proof.Machine.execRoutineFetchDone s
  | .clusterResend => Sys2Proof.Machine.execClusterResend s
  | .pageWalk => Sys2Proof.Machine.execPageWalk s
  | .qldDataArrival => Sys2Proof.Machine.execQldDataArrival s
  | .qstartCopyDone => Sys2Proof.Machine.execQstartCopyDone s
  | .vredqPass => Sys2Proof.Machine.execVredqPass s
  | .cpySectorWrite => Sys2Proof.Machine.execCpySectorWrite s
  | .engineCompletionPost => Sys2Proof.Machine.execEngineCompletionPost s
  | .collectiveTimeout => Sys2Proof.Machine.execCollectiveTimeout s
  | .descentStep => Sys2Proof.Machine.execDescentStep s
  | .batchPost => Sys2Proof.Machine.execBatchPost s
  | .bexpLeafCommit => Sys2Proof.Machine.execBexpLeafCommit s
  | .bbackPass => Sys2Proof.Machine.execBbackPass s
  | .bdropPass => Sys2Proof.Machine.execBdropPass s
  | .reclaimAppend => Sys2Proof.Machine.execReclaimAppend s
  | .compactCommit => Sys2Proof.Machine.execCompactCommit s
  | .csignTimeout => Sys2Proof.Machine.execCsignTimeout s
  | .transferStart => Sys2Proof.Machine.execTransferStart s
  | .hatchSlot => Sys2Proof.Machine.execHatchSlot s
  | .remoteBeatArrival => Sys2Proof.Machine.execRemoteBeatArrival s
  | .transferEnd => Sys2Proof.Machine.execTransferEnd s
  | .superstepBarrier => Sys2Proof.Machine.execSuperstepBarrier s
  | .rollback => Sys2Proof.Machine.execRollback s
  | .compactDissolve => Sys2Proof.Machine.execCompactDissolve s
  | .barComplete => Sys2Proof.Machine.execBarComplete s
  | .gangWindowOpen => Sys2Proof.Machine.execGangWindowOpen s
  | .mgangTimeout => Sys2Proof.Machine.execMgangTimeout s
  | .launchTrigger => Sys2Proof.Machine.execLaunchTrigger s
  | .gangPlace => Sys2Proof.Machine.execGangPlace s
  | .headAgeTick => Sys2Proof.Machine.execHeadAgeTick s
  | .runbEndPass => Sys2Proof.Machine.execRunbEndPass s
  | .gridStall => Sys2Proof.Machine.execGridStall s
  | .domainHold => Sys2Proof.Machine.execDomainHold s
  | .domainHeld => Sys2Proof.Machine.execDomainHeld s
  | .domainStart => Sys2Proof.Machine.execDomainStart s
  | .domainHoldTimeout => Sys2Proof.Machine.execDomainHoldTimeout s
  | .domainReleased => Sys2Proof.Machine.execDomainReleased s
  | .domainRelease => Sys2Proof.Machine.execDomainRelease s
  | .msgArrival => Sys2Proof.Machine.execMsgArrival s
  | .msgRetry => Sys2Proof.Machine.execMsgRetry s
  | .rldRstReply => Sys2Proof.Machine.execRldRstReply s
  | .refusalArrival => Sys2Proof.Machine.execRefusalArrival s
  | .remoteTimeout => Sys2Proof.Machine.execRemoteTimeout s
  | .routerArbitrate => Sys2Proof.Machine.execRouterArbitrate s
  | .routerAgeTick => Sys2Proof.Machine.execRouterAgeTick s
  | .linkRetrain => Sys2Proof.Machine.execLinkRetrain s
  | .vcMerge => Sys2Proof.Machine.execVcMerge s
  | .linkAudit => Sys2Proof.Machine.execLinkAudit s
  | .preemptRequest => Sys2Proof.Machine.execPreemptRequest s
  | .proofSave => Sys2Proof.Machine.execProofSave s
  | .gangResume => Sys2Proof.Machine.execGangResume s
  | .pgateCommit => Sys2Proof.Machine.execPgateCommit s
  | .tilePowerUp => Sys2Proof.Machine.execTilePowerUp s
  | .doorbell => Sys2Proof.Machine.execDoorbell s
  | .regSpaceWrite => Sys2Proof.Machine.execRegSpaceWrite s
  | .ctxkill => Sys2Proof.Machine.execCtxkill s
  | .errclr => Sys2Proof.Machine.execErrclr s
  | .resetvec => Sys2Proof.Machine.execResetvec s
  | .errinjInject => Sys2Proof.Machine.execErrinjInject s
  | .errinjScrub => Sys2Proof.Machine.execErrinjScrub s
  | .preqPreemptHold => Sys2Proof.Machine.execPreqPreemptHold s
  | .preqRelease => Sys2Proof.Machine.execPreqRelease s
  | .hostMemWrite => Sys2Proof.Machine.execHostMemWrite s
  | .hostMemRead => Sys2Proof.Machine.execHostMemRead s
  | .biasFlipHost => Sys2Proof.Machine.execBiasFlipHost s
  | .biasFlipDevice => Sys2Proof.Machine.execBiasFlipDevice s
  | .birsp => Sys2Proof.Machine.execBirsp s
  | .biasFlipDone => Sys2Proof.Machine.execBiasFlipDone s
  | .coreDeviceAccess => Sys2Proof.Machine.execCoreDeviceAccess s
  | .dctx => Sys2Proof.Machine.execDctx s
  | .pldmFwUpdate => Sys2Proof.Machine.execPldmFwUpdate s
  | .fwActivate => Sys2Proof.Machine.execFwActivate s
  | .fwActivateTimeout => Sys2Proof.Machine.execFwActivateTimeout s
  | .spdmMeasurement => Sys2Proof.Machine.execSpdmMeasurement s
  | .pldmSensorRead => Sys2Proof.Machine.execPldmSensorRead s
  | .pldmPowerCap => Sys2Proof.Machine.execPldmPowerCap s
  | .tileSpareRemap => Sys2Proof.Machine.execTileSpareRemap s
  | .hbmChannelSpare => Sys2Proof.Machine.execHbmChannelSpare s
  | .thermalThrottle => Sys2Proof.Machine.execThermalThrottle s
  | .thermalShutdown => Sys2Proof.Machine.execThermalShutdown s
  | .thermalConditionClears => Sys2Proof.Machine.execThermalConditionClears s
  | .slicemapWrite => Sys2Proof.Machine.execSlicemapWrite s
  | .tileLoss => Sys2Proof.Machine.execTileLoss s
  | .firmwareReady => Sys2Proof.Machine.execFirmwareReady s
  | .failedDeviceRemoval => Sys2Proof.Machine.execFailedDeviceRemoval s
  | .biasstatErrClear => Sys2Proof.Machine.execBiasstatErrClear s

end Sys2Proof.Machine
end

