-- ==== Sys2Proof/Machine/Turn.lean ====
section
/-! DEFINITION. The turn of a unit: fetch, decode, execution, and the traps and interrupts that
are due at its boundary (02 R32, R40, 04 R71, R79, 16 R405). -/
namespace Sys2Proof.Machine

/-- The hart stops behind what it has just completed, where its gang is being stopped. -/
def State.stopIfDue (s : State) : State := if s.stopDue s.cur then s.stopHart s.cur else s

/-- What is due at a boundary of the execute hart, in the order of 16 R405: the exception of the
instruction, deferred traps, interrupts. `s` is the state before the instruction. An instruction
that waits is withdrawn by any of them, a fault of a replayed word included; but one that has been
served completes first, and the word comes again (04 R79, 06 R140, R152). -/
def State.boundary (s : State) (o : Host.Outcome State Fault Refusal) :
    Host.Outcome State Fault Refusal :=
  match o with
  | .fault f => .fault f
  | .refused r => .refused r
  | .next s' =>
    if s'.exc then .next (if s.who = .vs ∧ s.served then s else s'.withdraw.stopIfDue)
    else if s.served then .next s'.stopIfDue
    else match s.tile.deferred with
      | _ :: _ => .next s.withdraw.takeDeferred
      | [] =>
        match s.tile.dueInterrupt s.gtc with
        | some c => .next (s.interrupt c)
        | none => .next s'.stopIfDue

/-- A decoded word is executed; one that is no instruction traps (02 R39). -/
def State.execWord (s : State) (w : Word32) : Host.Outcome State Fault Refusal :=
  let s := { s with ir := w }
  match decodeWord w with
  | .ok i => exec i s
  | .error _ => .next (s.illop w)

/-- An instruction of the hart in focus that has issued and waits, on a full/empty word or for the
opening of a gang window: it goes on without being fetched again (06 R140, R152, 10 R260). -/
def State.issuedWord (s : State) : Option Word32 :=
  match s.myWait with
  | some (_, w) => some w.word
  | none => s.tile.arrival.map (·.instr)

/-- The turn of the execute hart of the tile in focus. -/
def State.ehTurn (s : State) : Host.Outcome State Fault Refusal :=
  if s.tile.run ≠ .running then .next s
  else
    let s := { s with who := .eh, exc := false }
    let run (s : State) (w : Word32) : Host.Outcome State Fault Refusal :=
      s.boundary (({ s with tile := { s.tile with fetched := [], loading := false } }).execWord w)
    match s.issuedWord with
    | some w => run s w
    | none =>
      let s := s.detectFetch s.tile.eh.pc
      match s.fetchWord s.tile.eh.pc with
      | .error e => s.boundary (.next (s.raise e))
      | .ok w => run s w

/-- The turn of the vector sequencer: the next word of a replay (04 R76). -/
def State.vsTurn (s : State) : Host.Outcome State Fault Refusal :=
  match s.tile.frame with
  | none => .next s
  | some f =>
    if s.tile.run ≠ .running then .next s
    else
      let s := { s with who := .vs, exc := false, tile := { s.tile with loading := false } }
      s.boundary (s.execWord (frameWord f.frame (f.words.getD f.at_ 0) f.iter))

/-- The turn of a sequencer: it fetches from its own store (06 R146, 04 R71). The REASON of a fetch
past the store is not stated: it is free (log 14). -/
def State.seqTurn (s : State) (u : UnitId) : Host.Outcome State Fault Refusal :=
  let q := s.tile.seq u
  if !q.running || s.tile.run == .gated || s.tile.run == .stopped then .next s
  else
    let s := { s with who := u, exc := false }
    let pc := q.core.pc
    if 16384 ≤ pc.toNat then
      let reason := (slice (Config.freeWord s.fresh) 0 8).toNat
      .next ({ s with fresh := s.fresh + 1 }.raise ⟨.fetchfault,
        0#30 ++ BitVec.ofNat 2 u.source ++ slice pc 0 32,
        some (mfinfoOf 0 u.source 2 reason)⟩)
    else s.execWord (BitVec.ofNat 32 (readLE q.store.read pc.toNat 4))

/-- The turn of a unit of the tile in focus. -/
def State.turn (s : State) (u : UnitId) : Host.Outcome State Fault Refusal :=
  match u with
  | .eh => s.ehTurn
  | .vs => s.vsTurn
  | .as => s.seqTurn .as
  | .ss => s.seqTurn .ss

/-- A step of another agent: `i` is one of the rows of the opcode table without a word. -/
def State.eventTurn (s : State) (i : Instr) (a : EventArg) : Host.Outcome State Fault Refusal :=
  if encode i = 0 then exec i { s with arg := a, exc := false } else .next s

/-- A tile fetches a word ahead of its issue (07 R177). -/
def State.prefetchWord (s : State) (va : Word) : State :=
  match s.check { kind := .fetch, align := 4 } va with
  | .error _ => s
  | .ok x =>
    match s.fetchWord va with
    | .error _ => s
    | .ok w => s.onTile fun t => { t with fetched := (x.pa, w) :: t.fetched }

/-- What has arrived for saved harts since `old` lands in their areas (16 R415), and entries of
error reports that wait are added as far as their lines allow it (16 R411). -/
def landInAreas (old : State) (o : Host.Outcome State Fault Refusal) :
    Host.Outcome State Fault Refusal :=
  match o with
  | .next s => .next (s.flushReports.syncAreas old)
  | .fault f => .fault f
  | .refused r => .refused r

/-- The management controller reads or writes a control register of the application complex (17
R437). -/
def State.mgmtRegister (s : State) (off : Nat) (v : Option Word) : State :=
  if off % 8 ≠ 0 ∨ 0x10000 ≤ off then s
  else match v with
    | none => s.answer (s.readAppReg off).toNat
    | some v => s.writeRegSpace (0x30010000000 + off) 2 v

/-- One move of the agenda (log 5). -/
def State.move (s : State) (m : Move) : Host.Outcome State Fault Refusal :=
  match m with
  | .unit n u => if n < 2048 then landInAreas s ((s.focus n).turn u) else .fault .noSuchTile
  | .event i a => landInAreas s (s.eventTurn i a)
  | .time cc ns => .next { s with cc := s.cc + cc, gtc := s.gtc + ns }
  | .choose c => .next { s with choice := c }
  | .prefetch n va => .next (s.atTile n (·.prefetchWord va))
  | .evict n line => .next (s.evictLine n line)
  | .dropTlb n page => .next (s.modTile n fun t => { t with tlb := t.tlb.filter (·.page != page) })
  | .dropImage die slice ctx id =>
    .next { s with images := s.images.filter fun m =>
      !(m.home == (die, slice) && m.ctx == ctx && m.id == id) }
  | .clean sector => .next (s.cleanSector sector)
  | .examine sector => .next (if s.readStops (64 * sector) then s else s.detect sector)
  | .upset sector ue =>
    .next { s with injected := (sector, ue) :: s.injected.filter fun p => p.1 != sector }
  | .tenantBox b => .next { s with boxes := b :: s.boxes.filter fun x => x.tenant != b.tenant }
  | .portTenants k bits => .next (s.setPort k fun p => { p with tenants := bits })
  | .foreign f => .next (s.foreignAccess f)
  | .foreignTask n a b c => .next (s.foreignTask n ⟨s.fresh, a, b, c⟩)
  | .upsetLine n line => .next (s.lineLost n line)
  | .upsetApp line => .next (s.appLost line)
  | .evictApp line => .next (s.dropApp line)
  | .mgmtReg off v => .next (s.mgmtRegister off v)
  | .upsetMatrix n item ue =>
    .next (if ue then s.modTile n fun t => { t with unsound := insertNat t.unsound item }
      else s.tileError n 1 false (s.position n))

/-- With an empty agenda a replay goes on before the execute hart does, unless an instruction of the
hart has been served while it waited. -/
def State.defaultUnit (s : State) : UnitId := if s.tile.frame.isSome && !s.served then .vs else .eh

/-- A word stored where the execute hart of the tile in focus fetches next. -/
def State.placeWord (s : State) (w : Word32) : State :=
  match s.check { kind := .fetch, align := 0 } s.tile.eh.pc with
  | .error _ => s
  | .ok x =>
    let la := s.redirect s.cur (localAddr x.pa)
    let s := s.recall (lineOf la)
    writeLE (fun (s : State) a b => match regionOf a with
      | .window n off => s.modTile n (·.windowStore off b)
      | .hbm | .launch _ | .regs _ | .appSram | .appRegs _ | .hostMem | .unmapped =>
        { s with mem := s.mem.write a b }) s la w.toNat 4

/-- The tile in focus runs, and nothing else is under way that would come first. -/
def State.readyToRun (s : State) : State :=
  let me := s.cur
  { s.mapTiles fun _ t => { t with
      feWaits := t.feWaits.filter fun w => !(w.tile == me && w.task.isNone) } with agenda := [] }.onTile
    fun t => { t with
      run := .running, frame := none, fetched := [], deferred := [], arrival := none }

end Sys2Proof.Machine
end

