-- ==== Sys2Proof/Machine/Step.lean ====
section
/-! DEFINITION. One step of the device: the next move of the agenda, or, when it lists none, the
turn of the tile in focus. -/
namespace Sys2Proof.Machine

/-- One step (log 5). -/
def step (s : State) : Host.Outcome State Fault Refusal :=
  match s.agenda with
  | m :: rest => { s with agenda := rest }.move m
  | [] => landInAreas s (s.turn s.defaultUnit)

/-- `s` with the instruction whose bits are `w` placed where the execute hart of the tile in focus
fetches next, the hart running. -/
def State.withFetchWord (s : State) (_nbits w : Nat) : State :=
  s.readyToRun.placeWord (BitVec.ofNat 32 w)

end Sys2Proof.Machine
end

