-- ==== Sys2Proof/Safety.lean ====
section
/-! DEFINITION. The terms in which claims about the machine are made: when an instruction can run
at once, what a unit sees after one, and what counts as ordinary circumstances of an access. -/
namespace Sys2Proof.Machine

/-! ### Issue -/

/-- Nothing holds up an instruction with these registers: no result that it needs or would
overwrite is outstanding, no replay writes what it reads, and the checking scoreboard passes
(02 R45, R47, R50). -/
def State.ready (s : State) (reads writes : List RegRef) : Bool :=
  reads.all (fun r => !s.reqBusy r && !s.frameBusy r) && writes.all (fun r => !s.reqBusy r) &&
    (!bitAt s.tile.cr.status 10 || reads.all fun r => (s.regShort r).isNone)

/-- Nothing holds up a serializing instruction (02 R48). -/
def State.drained (s : State) : Bool :=
  !s.unitBusy && !(s.who == .eh && s.tile.frame.isSome)

/-- Nothing holds up a vector or matrix instruction of the unit: it is the execute hart with no
replay under way, or the vector sequencer (04 R77). -/
def State.vectorUnit (s : State) : Bool :=
  (s.who == .eh && s.tile.frame.isNone) || s.who == .vs

/-! ### What a unit sees -/

/-- The unit's register file replaced. -/
def State.setX (s : State) (f : RegFile 40 64) : State := s.setCore { s.core with x := f }

/-- `t` is `g` of `s` with V as X[d], and the unit gone on at `pc`: a read at a position that stands
`lat` after the instruction's own, or later, receives V, and one at an earlier position of the
instructions that follow receives what it would have received (02 R45). -/
def WroteXThen (g : State → State) (s t : State) (d : XReg) (v : Word) (lat : Nat) (pc : Word)
    (w : Nat) : Prop :=
  ∃ f : RegFile 40 64, t = (g (s.setX f)).goTo pc w ∧
    ∀ r p, s.pos + 1 + w ≤ p →
      f.read r p = if d ≠ 0 ∧ r = s.xIndex d.toNat ∧ s.pos + lat ≤ p then v
        else s.core.x.read r p

/-- The same with nothing else changed. -/
def WroteX (s t : State) (d : XReg) (v : Word) (lat : Nat) (pc : Word) (w : Nat) : Prop :=
  WroteXThen id s t d v lat pc w

/-- `i` answers a state that is `s` with V as X[d], `lat` positions later, and the next word. -/
def GivesX (i : Instr) (s : State) (st : StallCode) (d : XReg) (v : Word) (lat : Nat) : Prop :=
  ∃ t, exec i s = .next t ∧ WroteX s t d v lat (s.pc + 4) (stallWait st)

/-- `i` answers a state that is `g` of `s` with V as X[d], visible to every instruction that
follows, and the next word. -/
def FetchesX (g : State → State) (i : Instr) (s : State) (st : StallCode) (d : XReg) (v : Word) :
    Prop :=
  ∃ t, exec i s = .next t ∧ WroteXThen g s t d v 0 (s.pc + 4) (stallWait st)

/-- `i` answers a state that is `s` with V as V[d] `lat` positions later, the flags `fl` added to
FPFLAGS, and the next word. -/
def GivesV (i : Instr) (s : State) (st : StallCode) (d : VReg) (v : Vec) (lat : Nat)
    (fl : FpFlags) : Prop :=
  ∃ f : RegFile 32 512,
    exec i s = .next (((s.onTile fun t => { t with v := f }).orFlags fl).advance st) ∧
    f.late = s.tile.v.late ∧ ∀ r p, s.pos + 1 + stallWait st ≤ p →
      f.read r p = if r = d.toNat ∧ s.pos + lat ≤ p then v else s.tile.v.read r p

/-- The same for M[d]; m0 keeps all ones (02 R37). -/
def GivesM (i : Instr) (s : State) (st : StallCode) (d : MReg) (v : Word) (lat : Nat)
    (fl : FpFlags) : Prop :=
  ∃ f : RegFile 8 64,
    exec i s = .next (((s.onTile fun t => { t with m := f }).orFlags fl).advance st) ∧
    f.late = s.tile.m.late ∧ ∀ r p, s.pos + 1 + stallWait st ≤ p →
      f.read r p = if d ≠ 0 ∧ r = d.toNat ∧ s.pos + lat ≤ p then v else s.tile.m.read r p

/-- The flags of the enabled elements of an instruction (05 R102, 09 R219). -/
def lanesFlags (m : Word) (w : Nat) (op : Nat → Nat × FpFlags) : FpFlags :=
  (List.range (lanes w)).foldl (fun fl k => if enabled m w k then fl ||| (op k).2 else fl) 0

/-- `i` gives V[d] the elements of width `w` that `op` computes where the mask enables them, and its
old ones elsewhere, with their flags (09 R219). -/
def GivesLanes (i : Instr) (s : State) (st : StallCode) (d : VReg) (m : MReg) (w lat : Nat)
    (op : Nat → Nat × FpFlags) : Prop :=
  ∃ v : Vec, GivesV i s st d v lat (lanesFlags (s.readM m) w op) ∧
    ∀ k < lanes w, elem v w k =
      (if enabled (s.readM m) w k then (op k).1 else elem (s.readV d) w k) % 2 ^ w

/-- `i` gives V[d] the elements that `op` computes, whatever stood there, and no flags. -/
def GivesElems (i : Instr) (s : State) (st : StallCode) (d : VReg) (w lat : Nat) (op : Nat → Nat) :
    Prop :=
  ∃ v : Vec, GivesV i s st d v lat 0 ∧ ∀ k < lanes w, elem v w k = op k % 2 ^ w

/-- 10 R248: what one element of an accumulator holds after `k` k-steps of integer products. -/
def ElementSum (ta tb : ElemType) (mx : Word) (a b : Vec) (k c : Nat) : Nat :=
  ElemType.i32.ofInt (ElemType.i32.toInt c +
    ((List.range k).map fun j => rowInt mx ta a j * rowInt mx tb b j).sum)

/-- The instruction has read matrix-side data that are lost: it performs nothing else than to go on,
the hart has a DATAERR to take at its next boundary, and the tile's bank holds an uncorrectable
error (10 R263). -/
def LosesData (i : Instr) (s : State) (st : StallCode) : Prop :=
  ∃ t : State, exec i s = .next (t.advance st) ∧ t.mem = s.mem ∧ t.others = s.others ∧
    (∃ k, t.tile = { s.tile with
      deferred := s.tile.deferred ++ [⟨Cause.dataerr.code, 1#1 ++ 0#31 ++ encode i, none⟩]
      tasks := { s.tile.tasks with side := k } }) ∧
    (t.bank (s.tileBank s.cur)).w0.getLsbD 9 = true

/-- The registers of a vector instruction stand ready and none of its v registers is bound to a
stream queue. -/
def State.vectorReady (s : State) (v : List VReg) (m : List MReg) (x : List XReg) : Bool :=
  s.vectorUnit && v.all (fun r => !s.tile.bound r.toNat) &&
    s.ready (v.map (fun r => .v r.toNat) ++ m.map .m ++ x.map .x)
      (v.map (fun r => .v r.toNat) ++ m.map .m ++ x.map .x)

/-! ### Accesses -/

/-- A request has been numbered. -/
def State.numbered (s : State) : State := { s with fresh := s.fresh + 1 }

/-- No access of an engine is parked at a line. -/
def State.enginesFree (s : State) : Bool :=
  s.tiles.all (fun p => p.2.cmds.all (·.entries.isEmpty)) && s.reclaimEntries.isEmpty

/-- The networks are at rest and delay nothing: no request is under way, no line is pinned, snooped,
copied, poisoned, in error or held by another device or the application complex, no access of an
engine is parked, no F/E load of the tile waits, no compact or mailbox exists, and requests are
answered at once without leaving copies (log 6). -/
def State.alone (s : State) : Bool :=
  !s.choice.defer && !s.choice.fill && !s.choice.walks && s.tile.reqs.isEmpty &&
    s.tile.remote.isEmpty && s.others.all (fun p => p.2.reqs.isEmpty && p.2.remote.isEmpty) &&
    s.ports.toList.all (fun p => p.waiting.isEmpty) && s.pins.isEmpty && s.compacts.isEmpty &&
    s.injected.isEmpty && s.poisoned.isEmpty && s.snoop.isEmpty && s.service.sparing.isNone &&
    s.mailboxes.isEmpty && s.feLoadsOut == 0 && s.farOwned.isEmpty && s.appCache.isEmpty &&
    s.enginesFree

/-- No tile and no shared cache of the application complex holds a copy of a line. -/
def State.uncached (s : State) (line : Nat) : Bool :=
  s.tiles.all (fun p => (p.2.line line).isNone) && (s.appLine line).isNone

/-- A request of the unit stands under way with the next number; nothing else has happened. -/
def State.underWay (s : State) (q : Req) : State :=
  s.numbered.onTile fun t => { t with reqs := t.reqs ++ [{ q with id := s.fresh }] }

/-- Memory of the device, as opposed to its registers, holds the address. -/
def memoryAt (la : Nat) : Bool :=
  match regionOf la with
  | .hbm | .window _ _ | .appSram | .hostMem => true
  | .launch _ | .regs _ | .appRegs _ | .unmapped => false

/-- The bytes that stand after a store of `n` bytes of V at `la`. In a tile window 1 to 7 stands
another view of the bytes of window 0 (06 R125); it is not spoken of. -/
def Stored (s t : State) (la n v : Nat) : Prop :=
  ∀ a, (∀ k off, regionOf a = .window k off → windowOf off = 0) →
    t.readByte a = if la ≤ a ∧ a < la + n then byteOf v (a - la) else s.readByte a

/-! ### Engines -/

/-- The line of a search tree at `va` stands at `la` in HBM, reachable by the engine and held by no
cache (12 R296); its translation waits for no walk and its access for nothing at the home. -/
def State.treeAt (s : State) (g : EngineAgent) (va : Word) (la : Nat) : Prop :=
  s.tableStop 2048 g.ctx g.trbase g.level va.toNat = none ∧
  (∀ w, s.engineHeld g w none la = none) ∧
  ∃ x, s.treeCheck g va.toNat = .ok x ∧ la = localAddr x.pa ∧ la % 128 = 0 ∧
    s.uncached la = true

/-- The first `k` words of a line. -/
def State.lineWords (s : State) (la k : Nat) : List Word :=
  (List.range k).map fun j => BitVec.ofNat 64 (s.readMem (la + 8 * j) 8)

/-- An engine reaches an address `va` for a command of a tile, at `la`, nothing holds its access up,
and no tile holds a copy of the line (11 R281, R283). -/
def State.engineAt (s : State) (n : Nat) (c : Command) (f : Form) (va la : Nat) : Prop :=
  s.tableStop 2048 c.ctx (s.getTile n).cr.trbase c.level va = none ∧
  (∀ w, s.engineHeld (s.agent n c) w none la = none) ∧
  ∃ x, s.engineCheck n c f va = .ok x ∧ s.isLocal x.pa = true ∧ la = localAddr x.pa ∧
    memoryAt la = true ∧ s.uncached (lineOf la) = true

end Sys2Proof.Machine
end

