-- ==== Sys2Proof/Certificates/Slice0/Obligations.lean ====
section
/-! DEFINITION. The statements for the provers. -/
open Sys2Proof Sys2Proof.Machine

/-- 03 R61 to R63: the register forms of the integer instructions. CLZ is the number of zero bits
above the highest one bit, CTZ of those below the lowest, CPOP the number of ones. A word of their
major opcode with a function number of 36 or more is no instruction. -/
def Obligations.IntegerRegisterForms : Prop :=
  (∀ w : Word32, w.toNat / 2 ^ 22 % 128 = 1 → 36 ≤ w.toNat % 128 → ∃ e, decodeWord w = .error e) ∧
  ∀ (s : State) (st : StallCode) (d a b : XReg),
    s.who ≠ .vs → s.ready [.x a, .x b] [.x d] = true →
    let A := s.readX a
    let B := s.readX b
    let n := B.toNat % 64
    GivesX (.add st d a b) s st d (A + B) 1 ∧
    GivesX (.sub st d a b) s st d (A - B) 1 ∧
    GivesX (.and st d a b) s st d (A &&& B) 1 ∧
    GivesX (.or st d a b) s st d (A ||| B) 1 ∧
    GivesX (.xor st d a b) s st d (A ^^^ B) 1 ∧
    GivesX (.andn st d a b) s st d (A &&& ~~~B) 1 ∧
    GivesX (.orn st d a b) s st d (A ||| ~~~B) 1 ∧
    GivesX (.sll st d a b) s st d (A <<< n) 1 ∧
    GivesX (.srl st d a b) s st d (A >>> n) 1 ∧
    GivesX (.sra st d a b) s st d (A.sshiftRight n) 1 ∧
    GivesX (.rol st d a b) s st d (A <<< n ||| A >>> (64 - n)) 1 ∧
    GivesX (.ror st d a b) s st d (A >>> n ||| A <<< (64 - n)) 1 ∧
    GivesX (.slt st d a b) s st d (if A.toInt < B.toInt then 1 else 0) 1 ∧
    GivesX (.sltu st d a b) s st d (if A.toNat < B.toNat then 1 else 0) 1 ∧
    GivesX (.min st d a b) s st d (BitVec.ofInt 64 (min A.toInt B.toInt)) 1 ∧
    GivesX (.max st d a b) s st d (BitVec.ofInt 64 (max A.toInt B.toInt)) 1 ∧
    GivesX (.minu st d a b) s st d (BitVec.ofNat 64 (min A.toNat B.toNat)) 1 ∧
    GivesX (.maxu st d a b) s st d (BitVec.ofNat 64 (max A.toNat B.toNat)) 1 ∧
    GivesX (.mul st d a b) s st d (A * B) 3 ∧
    GivesX (.mulh st d a b) s st d (BitVec.ofInt 64 (A.toInt * B.toInt / 2 ^ 64)) 3 ∧
    GivesX (.mulhu st d a b) s st d (BitVec.ofNat 64 (A.toNat * B.toNat / 2 ^ 64)) 3 ∧
    GivesX (.mulhsu st d a b) s st d (BitVec.ofInt 64 (A.toInt * (B.toNat : Int) / 2 ^ 64)) 3 ∧
    GivesX (.div st d a b) s st d
      (if B = 0 then BitVec.allOnes 64 else BitVec.ofInt 64 (A.toInt.tdiv B.toInt)) 0 ∧
    GivesX (.divu st d a b) s st d (if B = 0 then BitVec.allOnes 64 else A / B) 0 ∧
    GivesX (.rem st d a b) s st d
      (if B = 0 then A else BitVec.ofInt 64 (A.toInt.tmod B.toInt)) 0 ∧
    GivesX (.remu st d a b) s st d (if B = 0 then A else A % B) 0 ∧
    GivesX (.shadd1 st d a b) s st d ((A <<< 1) + B) 1 ∧
    GivesX (.shadd2 st d a b) s st d ((A <<< 2) + B) 1 ∧
    GivesX (.shadd3 st d a b) s st d ((A <<< 3) + B) 1 ∧
    (∀ k : Nat, k ≤ 64 → A.toNat < 2 ^ (64 - k) → (k < 64 → 2 ^ (63 - k) ≤ A.toNat) →
      GivesX (.clz st d a) s st d (BitVec.ofNat 64 k) 2) ∧
    (∀ k : Nat, k ≤ 64 → (∀ j < k, A.getLsbD j = false) → (k < 64 → A.getLsbD k = true) →
      GivesX (.ctz st d a) s st d (BitVec.ofNat 64 k) 2) ∧
    GivesX (.cpop st d a) s st d
      (BitVec.ofNat 64 ((List.range 64).filter fun j => A.getLsbD j).length) 2 ∧
    GivesX (.sextb st d a) s st d ((A.setWidth 8).signExtend 64) 1 ∧
    GivesX (.sexth st d a) s st d ((A.setWidth 16).signExtend 64) 1 ∧
    GivesX (.sextw st d a) s st d ((A.setWidth 32).signExtend 64) 1 ∧
    GivesX (.zextw st d a) s st d ((A.setWidth 32).setWidth 64) 1

/-- 03 R64 to R66: the integer forms with an immediate. -/
def Obligations.IntegerImmediateForms : Prop :=
  ∀ (s : State) (st : StallCode) (d a : XReg) (i : BitVec 12) (n : BitVec 6) (u : BitVec 17),
    s.who ≠ .vs → s.ready [.x a] [.x d] = true →
    let A := s.readX a
    let I : Word := i.signExtend 64
    GivesX (.addi st d a i) s st d (A + I) 1 ∧
    GivesX (.andi st d a i) s st d (A &&& I) 1 ∧
    GivesX (.ori st d a i) s st d (A ||| I) 1 ∧
    GivesX (.xori st d a i) s st d (A ^^^ I) 1 ∧
    GivesX (.slti st d a i) s st d (if A.toInt < I.toInt then 1 else 0) 1 ∧
    GivesX (.sltiu st d a i) s st d (if A.toNat < I.toNat then 1 else 0) 1 ∧
    GivesX (.slli st d a n) s st d (A <<< n.toNat) 1 ∧
    GivesX (.srli st d a n) s st d (A >>> n.toNat) 1 ∧
    GivesX (.srai st d a n) s st d (A.sshiftRight n.toNat) 1 ∧
    GivesX (.rori st d a n) s st d (A >>> n.toNat ||| A <<< (64 - n.toNat)) 1 ∧
    GivesX (.ldhi st d u) s st d (u.signExtend 64 * 4096) 1 ∧
    GivesX (.addpc st d u) s st d (s.pc + u.signExtend 64 * 4096) 1

/-- R69, R70: conditional branches compare their registers and go to pc + 4 × o or to the next
word; jumps link the address of the next word; the target of JALR is a sum of which no bit is
dropped, and one that is not a multiple of 4 traps MISALIGN with the target as TVAL. R81 to R83,
R86: BQT and BQF pop one outcome and branch on it, BQPUSH appends X[a] ≠ 0; the instruction stays
at issue, in state 1 or 2, while its queue is empty or full. -/
def Obligations.BranchesJumpsAndOutcomeQueues : Prop :=
  ((∀ (s : State) (st : StallCode) (a b : XReg) (o : BitVec 12),
      s.who ≠ .vs → s.ready [.x a, .x b] [] = true →
      let A := s.readX a
      let B := s.readX b
      let go (c : Prop) [Decidable c] : Host.Outcome State Fault Refusal :=
        .next (s.goTo (if c then s.pc + o.signExtend 64 * 4 else s.pc + 4) (stallWait st))
      exec (.beq st a b o) s = go (A = B) ∧
      exec (.bne st a b o) s = go (A ≠ B) ∧
      exec (.blt st a b o) s = go (A.toInt < B.toInt) ∧
      exec (.bge st a b o) s = go (B.toInt ≤ A.toInt) ∧
      exec (.bltu st a b o) s = go (A.toNat < B.toNat) ∧
      exec (.bgeu st a b o) s = go (B.toNat ≤ A.toNat)) ∧
    (∀ (s : State) (st : StallCode) (d : XReg) (o : BitVec 17),
      s.who ≠ .vs → s.ready [] [.x d] = true →
      ∃ t, exec (.jal st d o) s = .next t ∧
        WroteX s t d (s.pc + 4) 1 (s.pc + o.signExtend 64 * 4) (stallWait st)) ∧
    (∀ (s : State) (st : StallCode) (d a : XReg) (i : BitVec 12),
      s.who ≠ .vs → s.ready [.x a] [.x d] = true →
      let target := s.readX a + i.signExtend 64
      (target.toNat % 4 = 0 →
        ∃ t, exec (.jalr st d a i) s = .next t ∧
          WroteX s t d (s.pc + 4) 1 target (stallWait st)) ∧
      (target.toNat % 4 ≠ 0 →
        exec (.jalr st d a i) s = .next (s.raise ⟨.misalign, target, none⟩)))) ∧
  ((∀ (s : State) (st : StallCode) (o : BitVec 17), s.who ≠ .vs → s.ready [] [] = true →
      (s.boq = [] → exec (.bqt st o) s = .next (s.stay 1) ∧ exec (.bqf st o) s = .next (s.stay 1)) ∧
      (∀ b rest, s.boq = b :: rest →
        let s' := s.setBoq rest
        let target := s.pc + o.signExtend 64 * 4
        exec (.bqt st o) s =
          .next (s'.goTo (if b = true then target else s.pc + 4) (stallWait st)) ∧
        exec (.bqf st o) s =
          .next (s'.goTo (if b = false then target else s.pc + 4) (stallWait st)))) ∧
    (∀ (s : State) (st : StallCode) (a : XReg), s.who = .eh → s.ready [.x a] [] = true →
      let b := decide (s.readX a ≠ 0)
      (s.tile.boqA.length < 16 →
        exec (.bqpush st a 0) s = .next (({ s with
          tile := { s.tile with boqA := s.tile.boqA ++ [b] } }.noteSide true).advance st)) ∧
      (16 ≤ s.tile.boqA.length → exec (.bqpush st a 0) s = .next (s.stay 2)) ∧
      (s.tile.boqS.length < 16 →
        exec (.bqpush st a 1) s = .next (({ s with
          tile := { s.tile with boqS := s.tile.boqS ++ [b] } }.noteSide true).advance st)) ∧
      (16 ≤ s.tile.boqS.length → exec (.bqpush st a 1) s = .next (s.stay 2))) ∧
    (∀ (s : State) (st : StallCode) (a : XReg), s.who = .as → s.ready [.x a] [] = true →
      (s.tile.boqE.length < 16 →
        exec (.bqpush st a 0) s = .next (({ s with
          tile := { s.tile with boqE := s.tile.boqE ++ [decide (s.readX a ≠ 0)] } }).advance st)) ∧
      (16 ≤ s.tile.boqE.length → exec (.bqpush st a 0) s = .next (s.stay 2)) ∧
      exec (.bqpush st a 1) s = .next (s.illop (encode (.bqpush st a 1)))))

/-- 06 R130, 00 R1: a scalar load reads its bytes, little-endian, at the translated address of
X[A] + Sext(imm12) and extends them; memory keeps every byte. A load that the network delays
completes at issue and leaves a request under way. A check that fails traps, and a read of the
register space takes the register's value, once the unit's earlier stores to register space are
performed. That a machine at rest answers a request at once is the model's choice (log 6). -/
def Obligations.ScalarLoadsReadTheirBytes : Prop :=
  ∀ (s : State) (st : StallCode) (d a : XReg) (i : BitVec 12),
    (s.who = .eh ∨ s.who = .as) → s.ready [.x a] [.x d] = true → s.loadWaits = false →
    let va := s.readX a + i.signExtend 64
    let loads (ins : Instr) (n : Nat) (signed : Bool) : Prop :=
      let form : Form := { kind := .load, align := n, plain8 := n == 8 }
      let extend (v : Nat) : Word :=
        if signed then BitVec.ofInt 64 (signedAt n v) else BitVec.ofNat 64 v
      (∀ e, s.check form va = .error e → exec ins s = .next (s.raise e)) ∧
      (∀ x, s.check form va = .ok x → s.isLocal x.pa = true →
        (s.alone = true → memoryAt (localAddr x.pa) = true →
          s.uncached (lineOf (localAddr x.pa)) = true →
          FetchesX State.numbered ins s st d (extend (s.readMem (localAddr x.pa) n))) ∧
        (s.choice.defer = true → memoryAt (localAddr x.pa) = true →
          exec ins s = .next ((s.underWay
            (s.newReq .load [x.acc n 0 0] (s.destX d n signed) va)).advance st)) ∧
        (∀ v, s.regSpace x.pa = some v → s.regsWait x.pa = false →
          FetchesX State.numbered ins s st d v))
    loads (.lb st d a i) 1 true ∧ loads (.lh st d a i) 2 true ∧ loads (.lw st d a i) 4 true ∧
    loads (.ld st d a i) 8 false ∧ loads (.lbu st d a i) 1 false ∧ loads (.lhu st d a i) 2 false ∧
    loads (.lwu st d a i) 4 false

/-- 06 R130, 00 R1, 15 R396: a scalar store writes the low bytes of X[B] at the translated
address of X[A] + Sext(imm12), little-endian, and no other byte changes; registers stay. That a
machine at rest answers a request at once is the model's choice (log 6). -/
def Obligations.ScalarStoresWriteTheirBytes : Prop :=
  ∀ (s : State) (st : StallCode) (b a : XReg) (i : BitVec 12),
    (s.who = .eh ∨ s.who = .ss) → s.ready [.x a, .x b] [] = true → s.storeWaits = false →
    let va := s.readX a + i.signExtend 64
    let stores (ins : Instr) (n : Nat) : Prop :=
      let form : Form := { kind := .store, align := n, plain8 := n == 8 }
      let v := (s.readX b).toNat % 256 ^ n
      (∀ e, s.check form va = .error e → exec ins s = .next (s.raise e)) ∧
      (∀ x, s.check form va = .ok x → s.isLocal x.pa = true →
        memoryAt (localAddr x.pa) = true →
        (s.alone = true → s.uncached (lineOf (localAddr x.pa)) = true →
          x.pvt = false ∨ x.mt = true →
          ∃ t, exec ins s = .next t ∧
            t = ((s.numbered.writeMem s.tile.ctx (localAddr x.pa) n v).noteSide true).advance st ∧
            ((∀ k off, regionOf (localAddr x.pa) = .window k off → windowOf off = 0) →
              Stored s t (localAddr x.pa) n v)) ∧
        (s.choice.defer = true →
          exec ins s = .next (((s.underWay
            (s.newReq .store [x.acc n 0 v] .none va)).noteSide true).advance st)))
    stores (.sb st b a i) 1 ∧ stores (.sh st b a i) 2 ∧ stores (.sw st b a i) 4 ∧
    stores (.sd st b a i) 8

/-- 06 R138, R139, R151, 07 R167: what the F/E instructions do with a FULL and an EMPTY word of a
scratchpad that nothing waits on, `o` its offset in tile `n`. LDW and LDF read a FULL word, LDWE
also leaves it EMPTY, FEGET reads its state; an EMPTY word holds LDW and LDWE up, and STW a FULL
one; STF and FESET write in either state. That a machine at rest answers a request at once is the
model's choice (log 6). -/
def Obligations.FullEmptyWordsAreReadAndWritten : Prop :=
  ∀ (s : State) (st : StallCode) (d a b : XReg) (i : BitVec 12) (x : Xlat) (n o : Nat),
    s.who = .eh → s.ready [.x a, .x b] [.x d] = true → s.alone = true → s.myWait = none →
    regionOf (localAddr x.pa) = .window n o → (s.getTile n).feWaits = [] →
    let va := s.readX a + i.signExtend 64
    let t := s.getTile n
    let fill (v : Option Word) (full : Bool) (s : State) : State :=
      s.modTile n fun t =>
        let t := match v with
          | some w => t.feStore o w
          | none => t
        if full then t.setFull o else t.setEmpty o
    (s.check feLoad va = .ok x →
      (t.isEmpty o = false →
        FetchesX State.acquire (.ldw st d a i) s st d (t.feData o) ∧
        (s.tile.tasks.running = none ∨ s.tile.tasks.side = false →
          FetchesX State.acquire (.ldf st d a i) s st d (t.feData o)) ∧
        (s.tile.tasks.running = none → FetchesX (fun s => fill none false s.acquire)
          (.ldwe st d a i) s st d (t.feData o))) ∧
      (t.isEmpty o = true →
        exec (.ldw st d a i) s =
          .next ((s.addWait n ⟨o, .ldw, s.cur, 0, none, none, false, s.ir⟩).stay 0) ∧
        exec (.ldwe st d a i) s =
          .next ((s.addWait n ⟨o, .ldwe, s.cur, 0, none, none, false, s.ir⟩).stay 0))) ∧
    (s.check feWrite va = .ok x →
      exec (.stf st b a i) s =
        .next (((fill (some (s.readX b)) true s).noteSide true).advance st) ∧
      (t.isEmpty o = true → exec (.stw st b a i) s =
        .next (((fill (some (s.readX b)) true s).noteSide true).advance st)) ∧
      (t.isEmpty o = false → exec (.stw st b a i) s =
        .next ((s.addWait n ⟨o, .stw, s.cur, s.readX b, none, none, false, s.ir⟩).stay 0))) ∧
    (s.check feLoad (s.readX a) = .ok x →
      FetchesX (fun s => if t.isEmpty o then s else s.acquire) (.feget st d a) s st d
        (if t.isEmpty o then 0 else 1)) ∧
    (s.check feWrite (s.readX a) = .ok x →
      exec (.feset st a b) s =
        .next (((fill none ((s.readX b).getLsbD 0) s).noteSide true).advance st))

/-- 06 R132 to R135, R137: vector loads. The elements that the mask enables are read from their
addresses, the others keep the bytes of the register; with no element enabled nothing is accessed.
The address of an element is that of the first one plus its place, its index times the stride, or
an element of V[B] times the size. That a machine at rest answers a request at once is the model's
choice (log 6). -/
def Obligations.VectorLoadsReadEnabledElements : Prop :=
  ∀ (s : State) (st : StallCode) (d : VReg) (a b : XReg) (c : VReg) (m : MReg) (o : BitVec 9)
    (w : BitVec 2),
    s.who = .eh → s.tile.frame = none → s.alone = true → s.tile.bound d.toNat = false →
    s.tile.bound c.toNat = false →
    s.ready [.x a, .x b, .m m, .v c.toNat, .v d.toNat] [.v d.toNat] = true →
    let z := 2 ^ w.toNat
    let on (k : Nat) : Bool := (s.readM m).getLsbD k
    let reads (ins : Instr) (n z : Nat) (at_ : (Nat → Xlat) → Prop) : Prop :=
      ((∀ k < n, on k = false) → exec ins s = .next (s.advance st)) ∧
      ∀ xs, at_ xs → (∃ k < n, on k = true) →
        (∀ k < n, on k = true → s.isLocal (xs k).pa = true ∧
          memoryAt (localAddr (xs k).pa) = true ∧
          s.uncached (lineOf (localAddr (xs k).pa)) = true) →
        ∃ v : Vec, exec ins s =
          .next ((s.numbered.onTile (·.commitV false d.toNat v)).advance st) ∧
          ∀ k < n, elem v (8 * z) k = if on k then s.readMem (localAddr (xs k).pa) z
            else elem (s.readV d) (8 * z) k
    let each (addr : Nat → Word) (xs : Nat → Xlat) : Prop := ∀ k < 64 / z, on k = true →
      s.check { kind := .load, align := z } (addr k) = .ok (xs k)
    reads (.vld st d a m o) 8 8 (fun xs =>
      s.check { kind := .load, align := 64 } (s.readX a + o.signExtend 64 * 64) = .ok (xs 0) ∧
        ∀ k, xs k = { xs 0 with pa := (xs 0).pa + 8 * k }) ∧
    reads (.vlds st d a b m w) (64 / z) z
      (each fun k => s.readX a + BitVec.ofNat 64 k * s.readX b) ∧
    reads (.vgath st d a c m w) (64 / z) z
      (each fun k => s.readX a +
        BitVec.ofInt 64 (signedAt z (elem (s.readV c) (8 * z) k)) * BitVec.ofNat 64 z)

/-- 06 R132 to R135, R137: vector stores write the enabled elements, in ascending order, each at
its address; nothing else changes. That a machine at rest answers a request at once is the model's
choice (log 6). -/
def Obligations.VectorStoresWriteEnabledElements : Prop :=
  ∀ (s : State) (st : StallCode) (d : VReg) (a b : XReg) (c : VReg) (m : MReg) (o : BitVec 9)
    (w : BitVec 2),
    s.who = .eh → s.alone = true → s.tile.bound d.toNat = false → s.tile.bound c.toNat = false →
    s.ready [.x a, .x b, .m m, .v c.toNat, .v d.toNat] [] = true →
    let z := 2 ^ w.toNat
    let on (k : Nat) : Bool := (s.readM m).getLsbD k
    let writes (ins : Instr) (n z : Nat) (at_ : (Nat → Xlat) → Prop) : Prop :=
      ((∀ k < n, on k = false) → exec ins s = .next ((s.noteSide true).advance st)) ∧
      ∀ xs, at_ xs → (∃ k < n, on k = true) →
        (∀ k < n, on k = true → s.isLocal (xs k).pa = true ∧
          memoryAt (localAddr (xs k).pa) = true ∧ (xs k).pvt = false ∧
          s.uncached (lineOf (localAddr (xs k).pa)) = true) →
        exec ins s = .next (((((List.range n).filter on).foldl (fun s k =>
          s.writeMem s.tile.ctx (localAddr (xs k).pa) z (elem (s.readV d) (8 * z) k))
            s.numbered).noteSide true).advance st)
    let each (addr : Nat → Word) (xs : Nat → Xlat) : Prop := ∀ k < 64 / z, on k = true →
      s.check { kind := .store, align := z } (addr k) = .ok (xs k)
    writes (.vst st d a m o) 8 8 (fun xs =>
      s.check { kind := .store, align := 64, vst := true } (s.readX a + o.signExtend 64 * 64)
          = .ok (xs 0) ∧
        ∀ k, xs k = { xs 0 with pa := (xs 0).pa + 8 * k }) ∧
    writes (.vsts st d a b m w) (64 / z) z
      (each fun k => s.readX a + BitVec.ofNat 64 k * s.readX b) ∧
    writes (.vscat st d a c m w) (64 / z) z
      (each fun k => s.readX a +
        BitVec.ofInt 64 (signedAt z (elem (s.readV c) (8 * z) k)) * BitVec.ofNat 64 z)

/-- 06 R136, R137: TLD fills ROWS rows of COLB bytes of a tile register from rows X[B] apart, and
leaves its other bytes; TST stores those bytes of each row. Every word of every row is checked
first. A TST that meets an uncorrectable error in the register stores nothing (10 R263). -/
def Obligations.TileTransfersMoveRows : Prop :=
  ∀ (s : State) (st : StallCode) (t : TReg) (a b : XReg) (xs : Nat → Nat → Xlat),
    s.who = .eh → s.alone = true → s.gangHeld = false → s.tile.frame = none →
    s.ready [.x a, .x b, .t t] [.t t] = true →
    let rows := s.tile.rows t
    let n := s.tile.colb t
    1 ≤ rows → rows ≤ 64 → 1 ≤ n → n ≤ 64 →
    let passes (form : Form) : Prop := ∀ j < rows, ∀ k < (n + 7) / 8,
      s.check form (s.readX a + BitVec.ofNat 64 j * s.readX b + BitVec.ofNat 64 (8 * k))
        = .ok (xs j k) ∧ s.isLocal (xs j k).pa = true ∧ (xs j k).pvt = false ∧
      memoryAt (localAddr (xs j k).pa) = true ∧
      s.uncached (lineOf (localAddr (xs j k).pa)) = true
    let row (s : State) (j : Nat) : Vec := vget (vget s.tile.t t.toNat (Vector.replicate 64 0)) j 0
    (passes { kind := .load, align := 8 } →
      ∃ f : Vector (Vector Vec 64) 8,
        let s' := s.numbered.onTile fun tl => { tl with t := f }
        exec (.tld st t a b) s = .next (s'.advance st) ∧
        (∀ j < rows, ∀ i < 64, elem (row s' j) 8 i =
          if i < n then (s.readByte (localAddr (xs j (i / 8)).pa + i % 8)).toNat
          else elem (row s j) 8 i) ∧
        (∀ j < 64, rows ≤ j → row s' j = row s j) ∧
        (∀ r < 8, r ≠ t.toNat → vget f r (Vector.replicate 64 0) =
          vget s.tile.t r (Vector.replicate 64 0))) ∧
    (passes { kind := .store, align := 8 } → t.toNat ∈ s.tile.unsound →
      LosesData (.tst st t a b) s st) ∧
    (passes { kind := .store, align := 8 } → t.toNat ∉ s.tile.unsound →
      exec (.tst st t a b) s = .next ((((List.range rows).foldl (fun s j =>
        (List.range ((n + 7) / 8)).foldl (fun s k =>
          s.writeMem s.tile.ctx (localAddr (xs j k).pa) (min 8 (n - 8 * k))
            ((row s j).toNat / 256 ^ (8 * k) % 256 ^ min 8 (n - 8 * k))) s)
        s.numbered).noteSide true).advance st))

/-- 07 R161, 08 R187, 00 R1: what a home writes. The bytes at the address become those of the
value, lowest first, and no other byte of memory and no other scratchpad changes. -/
def Obligations.HomeWritesChangeOnlyTheirBytes : Prop :=
  ∀ (s : State) (ctx la n v : Nat),
    s.uncached (lineOf la) = true → memoryAt la = true → la % 128 + n ≤ 128 →
    (∀ k off, regionOf la = .window k off → windowOf off = 0) →
    Stored s (s.writeMem ctx la n v) la n v ∧
    (∀ k, (∀ off, regionOf la ≠ .window k off) →
      ((s.writeMem ctx la n v).getTile k) = s.getTile k) ∧
    (∀ k off, regionOf la = .window k off → (s.writeMem ctx la n v).mem = s.mem)

/-- 06 R142, R143: QLD reserves an inbound entry and fills it with the 64 bytes at its address;
QST pops an outbound entry and stores it. Each waits on its queue. That a machine at rest answers
a request at once is the model's choice (log 6). -/
def Obligations.StreamTransfersFillAndDrainQueues : Prop :=
  ∀ (s : State) (st : StallCode) (n : BitVec 2) (a : XReg) (i : BitVec 12) (x : Xlat),
    s.alone = true → s.ready [.x a] [] = true → s.isLocal x.pa = true → x.pvt = false →
    x.pa % 64 = 0 → memoryAt (localAddr x.pa) = true →
    s.uncached (lineOf (localAddr x.pa)) = true →
    let va := s.readX a + i.signExtend 64
    let queue (k : Nat) : List QEntry := vget s.tile.queues k []
    (s.who = .as →
      (8 ≤ (queue n.toNat).length → exec (.qld st n a i) s = .next (s.stay 4)) ∧
      ((queue n.toNat).length < 8 → (∀ e ∈ queue n.toNat, e.ticket ≠ s.fresh + 1) →
        s.check { kind := .load, align := 64 } va = .ok x →
        exec (.qld st n a i) s = .next ((s.numbered.onTile fun t => { t with
          queues := vset t.queues n.toNat (queue n.toNat ++
            [⟨s.fresh + 1, BitVec.ofNat 512 (s.readMem (localAddr x.pa) 64), true, false⟩]) }).advance
          st))) ∧
    (s.who = .ss →
      (queue (n.toNat + 4) = [] → exec (.qst st n a i) s = .next (s.stay 3)) ∧
      (∀ e rest, queue (n.toNat + 4) = e :: rest → e.arrived = true →
        s.check { kind := .store, align := 64 } va = .ok x →
        exec (.qst st n a i) s = .next (((List.range 8).foldl (fun s k =>
          s.writeMem s.tile.ctx (localAddr x.pa + 8 * k) 8 (elem e.data 64 k))
          (s.numbered.onTile fun t =>
            { t with queues := vset t.queues (n.toNat + 4) rest })).advance st)))

/-- 06 R145 to R148: QBIND and QUNBIND set and clear bindings; QSTART gives the sequencer the
image, the execute hart's x registers, each with no result outstanding, and pc 0, and empties the
queues that it fills; QSTOP stops a sequencer; QWAIT passes once the sequencer has stopped and its
accesses are performed. That a machine at rest answers a request at once is the model's choice
(log 6). -/
def Obligations.SequencersStartStopAndBind : Prop :=
  (∀ (s : State) (st : StallCode) (a : XReg), s.who = .eh → s.drained = true →
    s.ready [.x a] [] = true →
    let r := s.settle
    exec (.qbind st a) s = .next ((r.onTile fun t =>
      { t with bind := t.bind ||| (r.readX a).setWidth 4 }).goTo (r.pc + 4) 0) ∧
    exec (.qunbind st a) s = .next ((r.onTile fun t =>
      { t with bind := t.bind &&& ~~~(r.readX a).setWidth 4 }).goTo (r.pc + 4) 0)) ∧
  (∀ (s : State) (st : StallCode) (u : BitVec 1) (a b : XReg) (xs : Nat → Xlat),
    s.who = .eh → (∀ r : XReg, s.ready [.x r] [] = true) → s.alone = true →
    (s.tile.seq (seqUnit u)).copying = none →
    let len := (s.readX b).toNat
    (s.readX a).toNat % 128 = 0 → len % 4 = 0 → 4 ≤ len → len ≤ 16384 →
    (∀ k < (len + 127) / 128,
      s.check { kind := .load, align := 128 } (s.readX a + BitVec.ofNat 64 (128 * k)) = .ok (xs k) ∧
      s.isLocal (xs k).pa = true ∧ s.uncached (lineOf (localAddr (xs k).pa)) = true) →
    ∃ t, exec (.qstart st u a b) s = .next (t.advance st) ∧
      t = s.onTile (fun _ => t.tile) ∧
      (∀ v, v ≠ seqUnit u → t.tile.core v = s.tile.core v) ∧
      (t.tile.seq (seqUnit u)).running = true ∧
      (t.tile.seq (seqUnit u)).core.pc = 0 ∧
      (∀ r : XReg, ∀ p, (t.tile.seq (seqUnit u)).core.x.read r.toNat p = s.readX r) ∧
      (∀ k < len, (t.tile.seq (seqUnit u)).store.read k =
        s.readByte (localAddr (xs (k / 128)).pa + k % 128)) ∧
      (u = 0 → t.tile.boqA = [] ∧ t.tile.boqE = [] ∧ t.tile.boqS = s.tile.boqS ∧
        ∀ k < 8, vget t.tile.queues k [] = if k < 4 then [] else vget s.tile.queues k []) ∧
      (u = 1 → t.tile.boqS = [] ∧ t.tile.boqA = s.tile.boqA ∧ t.tile.boqE = s.tile.boqE ∧
        t.tile.queues = s.tile.queues)) ∧
  (∀ (s : State) (st : StallCode) (u : BitVec 1), s.who = .eh → s.ready [] [] = true →
    (s.tile.seq (seqUnit u)).copying = none →
    exec (.qstop st u) s = .next ((s.onTile fun t =>
      t.setSeq (seqUnit u) (t.seq (seqUnit u)).stop).advance st) ∧
    ((s.tile.seq (seqUnit u)).running = false → s.tile.quiet (seqUnit u) = true →
      exec (.qwait st u) s = .next (s.advance st)) ∧
    ((s.tile.seq (seqUnit u)).running = true → exec (.qwait st u) s = .next (s.stay 0)))

/-- 06 R150: CCLEAN writes the dirty sectors of the tile's copy back and keeps it clean, CFLUSH
also gives the line up, CINV drops it; CPREF leaves a copy of both sectors of the line. Without a
copy nothing happens. 07 R166, R167, R172, R175 to R179: FENCE with REL waits for the unit's
writes at its scope and keeps the number of the request that follows its issue, with ACQ at a
scope wider than TILE it drops the lines that the tile does not own, and with SQ it also waits for
the sequencers' accesses; FENCEI drops the words fetched ahead; FENCEA waits for the hart's
commands. That FENCEI also waits for the unit's own writes, and that FENCEA also drops the lines
that the tile does not own, is the model's choice (log 32); that a machine at rest answers a
request at once is so too (log 6). -/
def Obligations.CacheMaintenanceAndFences : Prop :=
  (∀ (s : State) (st : StallCode) (a : XReg) (x : Xlat),
      s.who = .eh → s.ready [.x a] [] = true → s.alone = true → s.isLocal x.pa = true →
      let line := lineOf (localAddr x.pa)
      let form (k : AccKind) : Form := { kind := k, align := 0, maint := true }
      (s.check (form .load) (s.readX a) = .ok x →
        (s.tile.line line = none → exec (.cclean st a) s = .next (s.advance st) ∧
          exec (.cflush st a) s = .next (s.advance st)) ∧
        (∀ l, s.tile.line line = some l →
          exec (.cclean st a) s = .next (((s.onTile (·.setLine
            { l with dirty0 := false, dirty1 := false })).writeBackLine l).advance st) ∧
          exec (.cflush st a) s =
            .next (((s.onTile (·.dropLine line)).writeBackLine l).advance st)) ∧
        (cacheable (localAddr x.pa) = true → x.mt = false →
          exec (.cpref st a) s = .next
            ((((if s.tile.owns line then s else s.recall line).fill s.cur line).fill s.cur
              (line + 64)).advance st))) ∧
      (s.check (form .store) (s.readX a) = .ok x →
        (s.tile.line line = none → exec (.cinv st a) s = .next (s.advance st)) ∧
        (∀ l, s.tile.line line = some l →
          exec (.cinv st a) s = .next ((s.onTile (·.dropLine line)).advance st))) ∧
      (∀ e, s.check (form .load) (s.readX a) = .error e →
        exec (.cpref st a) s = .next (s.advance st))) ∧
  (∀ (s : State) (st : StallCode) (r : BitVec 1) (c : BitVec 3), s.drained = true →
      s.who = .eh →
      let z := s.settle
      let done (s : State) : Host.Outcome State Fault Refusal := .next (s.goTo (s.pc + 4) 0)
      ((r = 0 ∨ s.releasedAt c.toNat = true) →
        exec (.fence st 0 r c 0) s = done z ∧
        (c ≠ 0 → exec (.fence st 1 r c 0) s = done (z.onTile (·.invalidate)) ∧
          (s.tile.quiet .as = true → s.tile.quiet .ss = true →
            exec (.fence st 1 r c 1) s = done (z.onTile (·.invalidate)))) ∧
        (c = 0 → exec (.fence st 1 r c 0) s = done z ∧
          (s.tile.quiet .as = true → s.tile.quiet .ss = true →
            exec (.fence st 1 r c 1) s = done z))) ∧
      (s.releasedAt c.toNat = false → exec (.fence st 0 1 c 0) s =
        .next ((z.setCore { z.core with begun := some (.fence z.fenceMark) }).stay 0)) ∧
      (s.releasedAt 0 = true → exec .fencei s = done (z.onTile fun t => { t with fetched := [] })) ∧
      (s.releasedAt 0 = false → exec .fencei s = .next (z.stay 0)) ∧
      (s.tile.commandsDone = true → exec .fencea s = done (z.onTile (·.invalidate))) ∧
      (s.tile.commandsDone = false → exec .fencea s = .next (z.stay 0)))

/-- 08 R187, R190 to R193, R195: an atomic reads the word at its home, writes what its operation
computes from the old value and X[B], and returns the old value sign-extended; AMOCAS writes X[B]
only where the word equals X[D]. With the acquire bit and a scope wider than TILE the tile drops
the lines that it does not own. That a machine at rest answers a request at once is the model's
choice (log 6). -/
def Obligations.AtomicsReadComputeAndWrite : Prop :=
  ∀ (s : State) (st : StallCode) (d a b : XReg) (w : BitVec 1) (o : BitVec 2) (x : Xlat),
    s.who = .eh → s.alone = true → s.ready [.x a, .x b, .x d] [.x d] = true →
    s.isLocal x.pa = true → memoryAt (localAddr x.pa) = true →
    s.uncached (lineOf (localAddr x.pa)) = true →
    let la := localAddr x.pa
    let acts (z : Nat) (ins : Instr) (new : Nat → Nat → Option Nat) (fl : Nat → Nat → FpFlags) :
        Prop :=
      s.check { kind := .atomic, align := z } (s.readX a) = .ok x →
      let old := s.readMem la z
      let v := (s.readX b).toNat % 256 ^ z
      FetchesX (fun s =>
        let s := match new old v with
          | some r => s.numbered.writeMem s.tile.ctx la z r
          | none => s.numbered
        let s := s.orFlags (fl old v)
        (if o.getLsbD 0 = true ∧ s.tile.syncScope ≠ 0 then s.acquire else s).noteSide true)
        ins s st d (BitVec.ofInt 64 (signedAt z old))
    let z := if w = 0 then 4 else 8
    let int (ins : Instr) (f : Nat → Nat → Nat) : Prop :=
      acts z ins (fun old v => some (f old v % 2 ^ (8 * z))) fun _ _ => 0
    let signed (v : Nat) : Int := signedAt z v
    int (.amoadd st d a b w o) (fun old v => old + v) ∧
    int (.amoand st d a b w o) (fun old v => old &&& v) ∧
    int (.amoor st d a b w o) (fun old v => old ||| v) ∧
    int (.amoxor st d a b w o) (fun old v => old ^^^ v) ∧
    int (.amomin st d a b w o) (fun old v => if signed v < signed old then v else old) ∧
    int (.amomax st d a b w o) (fun old v => if signed old < signed v then v else old) ∧
    int (.amominu st d a b w o) min ∧
    int (.amomaxu st d a b w o) max ∧
    int (.amoswap st d a b w o) (fun _ v => v) ∧
    int (.amoincs st d a b w o) (fun old v => if old < v then old + 1 else old) ∧
    acts 4 (.amofadd st d a b o) (fun old v => some (fAdd .f32 s.tile.fpMode old v).1)
      (fun old v => (fAdd .f32 s.tile.fpMode old v).2) ∧
    acts 4 (.amofmax st d a b o) (fun old v => some (fMax .f32 old v)) (fun _ _ => 0) ∧
    acts z (.amocas st d a b w o)
      (fun old v => if old = (s.readX d).toNat % 256 ^ z then some v else none) (fun _ _ => 0)

/-- 08 R197, R207, R214: ETCALL runs the cached routine on the sixteen words of the line at X[A]
and on the operands X[B] to X[B+3] in one step; each sector that the routine wrote is written
back, and e4 and e5 are the results. 08 R204 to R207: the operations of the Etch unit, on
registers `r`: D names the destination, S1 to S3 the sources, and K the skip or the half of a
register. EFADD, EFMIN and EFMAX act on low halves and keep the high half of D, and EFADD adds its
flags. That a machine at rest answers a request at once is the model's choice (log 6). -/
def Obligations.EtchCallsAndOperations : Prop :=
  (∀ (s : State) (st : StallCode) (d a b : XReg) (o : BitVec 1) (i : BitVec 6) (x : Xlat)
      (image : EtchImage),
      s.who = .eh → s.alone = true → (Instr.etcall st d a b o i).wellFormed = true →
      s.ready [.x a, .x b, .x (b + 1), .x (b + 2), .x (b + 3)] [.x d, .x (d + 1)] = true →
      (s.readX a).toNat % 128 = 0 → x.pa % 128 = 0 → bitAt s.tile.cr.etbase 0 = true →
      s.check { kind := .atomic, align := 0 } (s.readX a) = .ok x → s.etchTarget x.pa = true →
      (∀ n off, regionOf (localAddr x.pa) = .window n off → windowOf off = 0) →
      s.uncached (localAddr x.pa) = true →
      (s.images.find? fun m => m.home == s.homeOf (localAddr x.pa) && m.ctx == s.tile.ctx &&
        m.id == i.toNat) = some image →
      let la := localAddr x.pa
      let line := (List.range 16).map fun k => BitVec.ofNat 64 (s.readMem (la + 8 * k) 8)
      let ops := [s.readX b, s.readX (b + 1), s.readX (b + 2), s.readX (b + 3)]
      let r := etchCall s.tile.fpMode image.words line ops
      let put (wrote : Bool) (lo : Nat) (s : State) : State :=
        if wrote then ((List.range 8).foldl (fun s k =>
          s.writeMem s.tile.ctx (la + 8 * (lo + k)) 8 (r.reg (lo + k)).toNat) s) else s
      let s' := put r.wrote1 8 (put r.wrote0 0 s.numbered)
      let s' := if d = 0 then s' else (s'.commitX d (r.reg 20)).commitX (d + 1) (r.reg 21)
      let s' := s'.orFlags r.flags
      let s' := if o = 1 ∧ s.tile.syncScope ≠ 0 then s'.acquire else s'
      exec (.etcall st d a b o i) s = .next ((s'.noteSide true).advance st)) ∧
  (∀ (md : FpMode) (u : Word32) (rest : List Word32) (r : EtchRun),
      let A := r.reg (etchS1 u)
      let B := r.reg (etchS2 u)
      let D := r.reg (etchD u)
      let gives (op : Nat) (v : Word) (fl : FpFlags) : Prop := etchOp u = op →
        etchRunWords md (u :: rest) 0 r = etchRunWords md rest 0
          { regs := setNth r.regs (etchD u) v, flags := r.flags ||| fl
            wrote0 := r.wrote0 || decide (etchD u < 8)
            wrote1 := r.wrote1 || decide (8 ≤ etchD u ∧ etchD u < 16) }
      let runs (op : Nat) (v : Word) : Prop := gives op v 0
      let a := A.toNat % 2 ^ 32
      let b := B.toNat % 2 ^ 32
      let half (k : Nat) (v : Nat) : Word := BitVec.ofNat 64 (if k = 0
        then D.toNat / 2 ^ 32 * 2 ^ 32 + v % 2 ^ 32 else D.toNat % 2 ^ 32 + v % 2 ^ 32 * 2 ^ 32)
      runs 0 A ∧ runs 1 ((u.setWidth 16).signExtend 64) ∧ runs 2 (A + B) ∧ runs 3 (A - B) ∧
      runs 4 (A &&& B) ∧ runs 5 (A ||| B) ∧ runs 6 (A ^^^ B) ∧ runs 7 (A <<< (B.toNat % 64)) ∧
      runs 8 (A >>> (B.toNat % 64)) ∧ runs 9 (A.sshiftRight (B.toNat % 64)) ∧
      runs 10 (BitVec.ofInt 64 (min A.toInt B.toInt)) ∧
      runs 11 (BitVec.ofInt 64 (max A.toInt B.toInt)) ∧
      runs 12 (BitVec.ofNat 64 (min A.toNat B.toNat)) ∧
      runs 13 (BitVec.ofNat 64 (max A.toNat B.toNat)) ∧
      runs 18 (if A = B then 1 else 0) ∧ runs 19 (if A.toInt < B.toInt then 1 else 0) ∧
      runs 20 (if A.toNat < B.toNat then 1 else 0) ∧
      runs 21 (if A = 0 then r.reg (etchS3 u) else B) ∧
      gives 14 (half 0 (fAdd .f32 md a b).1) (fAdd .f32 md a b).2 ∧
      runs 15 (half 0 (fMin .f32 a b)) ∧ runs 16 (half 0 (fMax .f32 a b)) ∧
      runs 17 (if (ElemType.f32.value a).lt false (ElemType.f32.value b) then 1 else 0) ∧
      runs 22 (half (etchK u % 2) a) ∧
      runs 23 (BitVec.ofNat 64 (A.toNat / 2 ^ (32 * (etchK u % 2)) % 2 ^ 32)) ∧
      (etchOp u = 24 → A ≠ 0 → etchRunWords md (u :: rest) 0 r = etchRunWords md rest 0 r) ∧
      (etchOp u = 24 → A = 0 → etchRunWords md (u :: rest) 0 r =
        etchRunWords md (rest.drop (etchK u)) 0 r) ∧
      (etchOp u = 25 → etchRunWords md (u :: rest) 0 r = r))

/-- 08 R202, R203, R211, R212: ETINST checks an image, writes its entry valid with a new version
and returns the version; ETDROP clears the valid bit; ETQUERY reads word 1 of an entry. A change
makes every slice drop the routine of the context, and ETFLUSH every routine of it. That a
machine at rest answers a request at once is the model's choice (log 6). -/
def Obligations.RoutineManagementChangesTheTable : Prop :=
  ∀ (s : State) (st : StallCode) (d a b : XReg) (x y : Xlat),
    s.who = .eh → s.alone = true → s.core.begun = none → s.ready [.x a, .x b] [.x d] = true →
    bitAt s.tile.cr.etbase 0 = true → s.isLocal y.pa = true → y.pa % 16 = 0 → y.pvt = false →
    memoryAt (localAddr y.pa) = true → s.uncached (lineOf (localAddr y.pa)) = true →
    let id := (s.readX b).toNat % 64
    let len := (s.readX b).toNat / 256 % 64
    let entry := s.tile.etEntry id
    let e := localAddr y.pa
    let old : Word := BitVec.ofNat 64 (s.readMem (e + 8) 8)
    let forget (all : Bool) (s : State) : State := { s with
      images := s.images.filter fun m => !(m.ctx == s.tile.ctx && (all || m.id == id)) }
    (s.check { kind := .load, align := 128 } (s.readX a) = .ok x → s.isLocal x.pa = true →
      x.pa % 128 = 0 → s.uncached (localAddr x.pa) = true →
      etchCheck ((List.range 32).map fun k =>
        BitVec.ofNat 32 (s.readMem (localAddr x.pa + 4 * k) 4)) len = none →
      s.check { kind := .store, align := 8 } entry = .ok y →
      let version : Nat := (old.toNat / 2 ^ 32 % 2 ^ 16 + 1) % 2 ^ 16
      FetchesX (fun s => (forget false
          ((s.writeMem s.tile.ctx e 8 ((s.readX a).toNat % 2 ^ 48)).writeMem s.tile.ctx (e + 8) 8
            (2 ^ 63 + version * 2 ^ 32 + len))).noteSide true)
        (.etinst st d a b) s st d (BitVec.ofNat 64 version)) ∧
    (s.check { kind := .store, align := 8 } entry = .ok y →
      exec (.etdrop st b) s = .next (((forget false
        (s.writeMem s.tile.ctx (e + 8) 8 (old.toNat % 2 ^ 63))).noteSide true).advance st)) ∧
    (s.check { kind := .load, align := 8 } (entry + 8) = .ok { y with pa := y.pa + 8 } →
      FetchesX State.numbered (.etquery st d b) s st d old) ∧
    exec (.etflush st) s = .next ((forget true s).advance st)

/-- 09 R217 to R221: the element-wise arithmetic. Integer elements are exact results taken into the
type, saturating for VSADD and VSSUB; floating-point elements are those of the number formats. -/
def Obligations.VectorArithmeticActsPerElement : Prop :=
  ∀ (s : State) (st : StallCode) (d a b : VReg) (m : MReg) (t : ElemType),
    s.vectorReady [d, a, b] [m] [] = true →
    let w := t.width
    let A (k : Nat) : Nat := elem (s.readV a) w k
    let B (k : Nat) : Nat := elem (s.readV b) w k
    let D (k : Nat) : Nat := elem (s.readV d) w k
    let md := s.tile.fpMode
    let sign := 2 ^ (w - 1)
    let gives (i : Instr) (lat : Nat) (int : Int → Int → Int → Int)
        (fp : Nat → Nat → Nat → Nat × FpFlags) : Prop :=
      GivesLanes i s st d m w lat fun k => if t.isFp then fp (A k) (B k) (D k)
        else (t.ofInt (int (t.toInt (A k)) (t.toInt (B k)) (t.toInt (D k))), 0)
    let fpLat := if t.isFp then 6 else 4
    let bits (i : Instr) (f : Nat → Nat → Nat) : Prop :=
      GivesLanes i s st d m w 4 fun k => (f (A k) (B k), 0)
    let neg (x : Nat) : Nat := if x < sign then x + sign else x - sign
    gives (.vadd st d a b m t) fpLat (fun x y _ => x + y) (fun x y _ => fAdd t md x y) ∧
    gives (.vsub st d a b m t) fpLat (fun x y _ => x - y) (fun x y _ => fAdd t md x (neg y)) ∧
    gives (.vmul st d a b m t) 6 (fun x y _ => x * y) (fun x y _ => fMul t md x y) ∧
    (t.isFp = false → gives (.vmulh st d a b m t) 6 (fun x y _ => x * y / (2 ^ w : Nat))
      (fun _ _ _ => (0, 0))) ∧
    gives (.vfma st d a b m t) 6 (fun x y z => x * y + z)
      (fun x y z => fFma t md false false x y z) ∧
    gives (.vfms st d a b m t) 6 (fun x y z => x * y - z)
      (fun x y z => fFma t md false true x y z) ∧
    gives (.vfnma st d a b m t) 6 (fun x y z => z - x * y)
      (fun x y z => fFma t md true false x y z) ∧
    gives (.vmin st d a b m t) fpLat (fun x y _ => min x y) (fun x y _ => (fMin t x y, 0)) ∧
    gives (.vmax st d a b m t) fpLat (fun x y _ => max x y) (fun x y _ => (fMax t x y, 0)) ∧
    gives (.vabs st d a m t) fpLat (fun x _ _ => x.natAbs) (fun x _ _ => (x % sign, 0)) ∧
    gives (.vneg st d a m t) fpLat (fun x _ _ => -x) (fun x _ _ => (neg x, 0)) ∧
    bits (.vand st d a b m t) (· &&& ·) ∧
    bits (.vor st d a b m t) (· ||| ·) ∧
    bits (.vxor st d a b m t) (· ^^^ ·) ∧
    bits (.vsll st d a b m t) (fun x y => x * 2 ^ (y % w)) ∧
    bits (.vsrl st d a b m t) (fun x y => x / 2 ^ (y % w)) ∧
    (GivesLanes (.vsra st d a b m t) s st d m w 4 fun k =>
      (t.ofInt ((if A k < sign then (A k : Int) else (A k : Int) - (2 ^ w : Nat)) /
        (2 ^ (B k % w) : Nat)), 0)) ∧
    (t.isFp = false → gives (.vsadd st d a b m t) 4 (fun x y _ => t.clamp (x + y))
      (fun _ _ _ => (0, 0))) ∧
    (t.isFp = false → gives (.vssub st d a b m t) 4 (fun x y _ => t.clamp (x - y))
      (fun _ _ _ => (0, 0)))

/-- 05 R104 to R110, 09 R217, R222: the special functions and the conversions act on each enabled
element. The first six results are scoreboarded. VPLANE puts bit 7 − p of every byte into plane p,
and VUNPLANE undoes it. -/
def Obligations.VectorFunctionsAndConversions : Prop :=
  ∀ (s : State) (st : StallCode) (d a b : VReg) (m : MReg) (t e : ElemType),
    s.vectorReady [d, a, b] [m] [] = true →
    let w := t.width
    let A (k : Nat) : Nat := elem (s.readV a) w k
    let B (k : Nat) : Nat := elem (s.readV b) w k
    let md := s.tile.fpMode
    GivesLanes (.vdiv st d a b m t) s st d m w 0 (fun k => fDiv t md (A k) (B k)) ∧
    GivesLanes (.vsqrt st d a m t) s st d m w 0 (fun k => fSqrt t md (A k)) ∧
    GivesLanes (.vexp2 st d a m t) s st d m w 0 (fun k => fExp2 t md (A k)) ∧
    GivesLanes (.vlog2 st d a m t) s st d m w 0 (fun k => fLog2 t md (A k)) ∧
    GivesLanes (.vrcp st d a m t) s st d m w 0 (fun k => fRcp t md (A k)) ∧
    GivesLanes (.vrsq st d a m t) s st d m w 0 (fun k => fRsq t md (A k)) ∧
    GivesLanes (.vcvt st d a e m t) s st d m w 6 (fun k => cvt e t md (A k)) ∧
    (e.width < w → ∃ v : Vec,
      GivesV (.vcvtn st d a e m t) s st d v 6
        (lanesFlags (s.readM m) w fun k => cvt e t md (A k)) ∧
      v.toNat < 2 ^ (e.width * lanes w) ∧
      ∀ k < lanes w, elem v e.width k = (if enabled (s.readM m) w k then (cvt e t md (A k)).1
        else elem (s.readV d) e.width k) % 2 ^ e.width) ∧
    (∀ u, t.widened = some u →
      GivesLanes (.vcvtwl st d a t m) s st d m u.width 4 (fun k => cvt u t md (A k)) ∧
      GivesLanes (.vcvtwh st d a t m) s st d m u.width 4
        (fun k => cvt u t md (A (lanes u.width + k)))) ∧
    GivesLanes (.vscaleb st d a b t) s st d 0 w 6 (fun k => fScale t md (A k)
      (if B k < 2 ^ (w - 1) then (B k : Int) else (B k : Int) - (2 ^ w : Nat))) ∧
    GivesElems (.vclass st d a t) s st d w 4 (fun k => fClass t (A k)) ∧
    (∃ v : Vec, GivesV (.vplane st d a) s st d v 4 0 ∧ ∀ p < 8, ∀ k < 64,
      v.getLsbD (64 * p + k) = (s.readV a).getLsbD (8 * k + (7 - p))) ∧
    (∃ v : Vec, GivesV (.vunplane st d a) s st d v 4 0 ∧ ∀ p < 8, ∀ k < 64,
      v.getLsbD (8 * k + (7 - p)) = (s.readV a).getLsbD (64 * p + k))

/-- 09 R217, R224 to R228, R233: selection, moves, permutations, the reductions and the dot
product. -/
def Obligations.VectorMovesPermutationsReductions : Prop :=
  ∀ (s : State) (st : StallCode) (d a b : VReg) (m : MReg) (x y : XReg) (t : ElemType),
    s.vectorReady [d, a, b] [m] [x, y] = true →
    let w := t.width
    let n := lanes w
    let A (k : Nat) : Nat := elem (s.readV a) w k
    let B (k : Nat) : Nat := elem (s.readV b) w k
    let X := (s.readX x).toNat
    let on (k : Nat) : Bool := (s.readM m).getLsbD k
    let chosen := (List.range n).filter on
    let reduced := B 0 :: ((List.range n).filter fun k => enabled (s.readM m) w k).map A
    let firstOnly (i : Instr) (v : Nat) (fl : FpFlags) : Prop :=
      ∃ r : Vec, GivesV i s st d r 10 fl ∧ r = BitVec.ofNat 512 (v % 2 ^ w)
    GivesElems (.vsel st d a b m t) s st d w 4 (fun k => if on k then A k else B k) ∧
    GivesLanes (.vmv st d a m t) s st d m w 4 (fun k => (A k, 0)) ∧
    GivesLanes (.vbcast st d x m t) s st d m w 4 (fun _ => (X, 0)) ∧
    GivesLanes (.vslideup st d a x m t) s st d m w 4
      (fun k => (if X ≤ k then A (k - X) else 0, 0)) ∧
    GivesLanes (.vslidedn st d a x m t) s st d m w 4
      (fun k => (if k + X < n then A (k + X) else 0, 0)) ∧
    GivesLanes (.vperm st d a b m t) s st d m w 4 (fun k => (A (B k % n), 0)) ∧
    GivesElems (.vcompress st d a m t) s st d w 4
      (fun k => if h : k < chosen.length then A chosen[k] else 0) ∧
    GivesElems (.vexpand st d a m t) s st d w 4
      (fun k => if on k then A ((List.range k).filter on).length else 0) ∧
    (t.isFp = false → firstOnly (.vredsum st d a b m t)
      (t.ofInt ((reduced.map t.toInt).sum)) 0) ∧
    (t.isFp = true → firstOnly (.vredsum st d a b m t)
      (fSum t s.tile.fpMode (reduced.map t.fmt.value)).1
      (fSum t s.tile.fpMode (reduced.map t.fmt.value)).2) ∧
    (t.isFp = false → ∀ v ∈ reduced, (∀ u ∈ reduced, t.toInt u ≤ t.toInt v) →
      firstOnly (.vredmax st d a b m t) (t.ofInt (t.toInt v)) 0) ∧
    (t.isFp = false → ∀ v ∈ reduced, (∀ u ∈ reduced, t.toInt v ≤ t.toInt u) →
      firstOnly (.vredmin st d a b m t) (t.ofInt (t.toInt v)) 0) ∧
    (t.isFp = true →
      firstOnly (.vredmax st d a b m t) (reduced.foldl (fMax t) t.fmt.canonNaN) 0 ∧
      firstOnly (.vredmin st d a b m t) (reduced.foldl (fMin t) t.fmt.canonNaN) 0) ∧
    (s.who = .eh → GivesX (.vmvx st y a x t) s st y (if X < n then
      (if t.isSigned then BitVec.ofInt 64 (t.toInt (A X)) else BitVec.ofNat 64 (A X)) else 0) 4) ∧
    (4 * w ≤ 64 → GivesLanes (.vdot4 st d a b m t) s st d m (4 * w) 6 (fun g =>
      ((((elem (s.readV d) (4 * w) g : Int) +
        ((List.range 4).map fun j => t.toInt (A (4 * g + j)) * t.toInt (B (4 * g + j))).sum) %
          (2 ^ (4 * w) : Nat)).toNat, 0)))

/-- 09 R223, R234: compares write a mask under a mask, with NV where an ordered compare meets a
NaN; mask operations act on all 64 bits; m0 keeps all ones. -/
def Obligations.ComparesAndMaskOperations : Prop :=
  ∀ (s : State) (st : StallCode) (d p q m : MReg) (a b : VReg) (x : XReg) (t : ElemType),
    s.who = .eh → s.vectorReady [a, b] [d, p, q, m] [x] = true →
    let w := t.width
    let P := s.readM p
    let Q := s.readM q
    let A (k : Nat) : Nat := elem (s.readV a) w k
    let B (k : Nat) : Nat := elem (s.readV b) w k
    let val (v : Nat) : FVal := t.fmt.value v
    let nan (k : Nat) : Bool := (val (A k)).isNaN || (val (B k)).isNaN
    let compares (i : Instr) (nv : Bool) (c : Nat → Bool) : Prop :=
      ∃ v : Word, GivesM i s st d v 4 (if nv = true ∧ t.isFp = true ∧
          ∃ k < lanes w, enabled (s.readM m) w k = true ∧ nan k = true then flagNV else 0) ∧
        ∀ k < 64, v.getLsbD k = (decide (k < lanes w) &&
          if enabled (s.readM m) w k then c k else (s.readM d).getLsbD k)
    (lanes w ≤ 64 →
      compares (.vcmpeq st d a b m t) false (fun k => if t.isFp then !nan k &&
        !(val (A k)).lt false (val (B k)) && !(val (B k)).lt false (val (A k))
        else t.toInt (A k) == t.toInt (B k)) ∧
      compares (.vcmplt st d a b m t) true (fun k => if t.isFp then
        (val (A k)).lt false (val (B k)) else decide (t.toInt (A k) < t.toInt (B k))) ∧
      compares (.vcmple st d a b m t) true (fun k => if t.isFp then !nan k &&
        !(val (B k)).lt false (val (A k)) else decide (t.toInt (A k) ≤ t.toInt (B k)))) ∧
    GivesM (.mand st d p q) s st d (P &&& Q) 4 0 ∧
    GivesM (.mor st d p q) s st d (P ||| Q) 4 0 ∧
    GivesM (.mxor st d p q) s st d (P ^^^ Q) 4 0 ∧
    GivesM (.mnot st d p) s st d (~~~P) 4 0 ∧
    GivesM (.mset st d x) s st d (s.readX x) 4 0 ∧
    GivesX (.mget st x p) s st x P 4 ∧
    GivesX (.mcnt st x p) s st x
      (BitVec.ofNat 64 ((List.range 64).filter fun j => P.getLsbD j).length) 4 ∧
    (∀ k ≤ 64, (∀ j < k, P.getLsbD j = false) → (k < 64 → P.getLsbD k = true) →
      GivesX (.mfirst st x p) s st x (BitVec.ofNat 64 k) 4)

/-- 06 R142, R144, for VMV and VADD: an instruction pops one entry for a bound source, also where
two fields name it, waits in state 3 on an empty queue, and pushes its result on a bound
destination, waiting in state 4 on a full one. 09 R229 to R231: VREDQ on an open channel with
messages takes the oldest one, adds its elements to V[D] under the mask, and counts X[A] down;
with a count of 1 it completes so, with a higher one it stays at issue, and with a count of 0, or
with x0, it completes and pops nothing. On a closed channel it takes CHANFAULT, and with a bound
vd ILLOP. -/
def Obligations.BoundRegistersAndQueueFedReduction : Prop :=
  (∀ (s : State) (st : StallCode) (d a : VReg), s.who = .eh → s.tile.frame = none →
      s.ready [.v a.toNat, .m 0] [.v d.toNat] = true →
      s.tile.bound a.toNat = true → s.tile.tasks.running = none →
      let q (k : Nat) : List QEntry := vget s.tile.queues k []
      let i : Instr := .vmv st d a 0 .i64
      let j : Instr := .vadd st d a a 0 .i64
      (q (a.toNat - 28) = [] → exec i s = .next (s.stay 3) ∧ exec j s = .next (s.stay 3)) ∧
      (∀ e rest, q (a.toNat - 28) = e :: rest → e.arrived = true → e.faulted = false →
        (s.tile.bound d.toNat = true → 8 ≤ (q (d.toNat - 24)).length →
          exec i s = .next (s.stay 4) ∧ exec j s = .next (s.stay 4)) ∧
        (s.tile.bound d.toNat = true → (q (d.toNat - 24)).length < 8 →
          exec i s = .next ((s.onTile fun t => { t with
            queues := vset (vset t.queues (a.toNat - 28) rest) (d.toNat - 24)
              (q (d.toNat - 24) ++ [⟨0, e.data, true, false⟩]) }).advance st)) ∧
        (s.tile.bound d.toNat = false → ∃ (f : RegFile 32 512) (v : Vec),
          exec j s = .next ((s.onTile fun t => { t with
            queues := vset t.queues (a.toNat - 28) rest, v := f }).advance st) ∧
          (∀ k < 8, elem v 64 k = 2 * elem e.data 64 k % 2 ^ 64) ∧
          ∀ r p, s.pos + 1 + stallWait st ≤ p →
            f.read r p = if r = d.toNat ∧ s.pos + 4 ≤ p then v else s.tile.v.read r p))) ∧
  (∀ (s : State) (st : StallCode) (d : VReg) (a : XReg) (c : BitVec 3) (m : MReg) (t : ElemType),
      s.who = .eh → s.tile.frame = none →
      s.ready [.x a, .m m, .v d.toNat] [.v d.toNat, .x a] = true →
      let i : Instr := .vredq st d a c m t
      let ch := s.channel c.toNat
      (s.tile.bound d.toNat = true → exec i s = .next (s.illop (encode i))) ∧
      (s.tile.bound d.toNat = false →
      (ch.isOpen = false →
        exec i s = .next (s.raise ⟨.chanfault, chanTval false 1 c.toNat (encode i), none⟩)) ∧
      (ch.isOpen = true → s.readX a = 0 → exec i s = .next ((s.noteSide true).advance st)) ∧
      (ch.isOpen = true → s.readX a ≠ 0 → ch.entries = [] → exec i s = .next (s.stay 0)) ∧
      (∀ msg rest, ch.isOpen = true → s.readX a ≠ 0 → ch.entries = msg :: rest →
        let w := t.width
        let op (k : Nat) : Nat × FpFlags :=
          if t.isFp then fAdd t s.tile.fpMode (elem (s.readV d) w k) (elem msg.data w k)
          else (t.ofInt (t.toInt (elem (s.readV d) w k) + t.toInt (elem msg.data w k)), 0)
        ∃ v : Vec, (∀ k < lanes w, elem v w k =
            (if enabled (s.readM m) w k then (op k).1 else elem (s.readV d) w k) % 2 ^ w) ∧
          let s' := (((s.noteSide true).setChannel c.toNat { ch with entries := rest }).orFlags
            (lanesFlags (s.readM m) w op)).onTile (·.commitV false d.toNat v)
          let s' := (s'.commitX a (s.readX a - 1)).acquire
          (s.readX a = 1 → exec i s = .next ((s'.noteSide true).advance st)) ∧
          (s.readX a ≠ 1 → exec i s = .next (s'.stay 0)))))

/-- 10 R240, R246 to R250, R253: the accumulating instructions of a tile outside a gang window.
Element (i, j) of a bank takes the chain of row i of the one tile register with row j of the other
over `k` k-steps; nothing else of the array changes but the row counters and MSTAT. One that meets
an uncorrectable error in what it reads performs nothing, and DATAERR follows (10 R263). That
MZERO ends an error of its bank is the model's choice (log 24). -/
def Obligations.MatrixInstructionsAccumulate : Prop :=
  ∀ (s : State) (st : StallCode) (b : BitVec 2) (a c : TReg) (v : VReg),
    s.vectorUnit = true → s.tile.window = none → v.toNat < 31 →
    s.tile.bound v.toNat = false → s.tile.bound (v.toNat + 1) = false →
    s.ready [.t a, .t c, .acc b, .v v.toNat, .v (v.toNat + 1)] [.t a, .t c, .acc b] = true →
    let t := s.tile
    let mx := t.cr.mxcfg
    let A := typeA mx
    let B := typeB mx
    let k := kSteps mx A (t.colb a)
    let cell (t : Tile) (n i j : Nat) : Nat := (vget (t.bankRow n i) j 0).toNat
    let chain (x i j : Nat) : Nat :=
      if fpClass mx then (chainFp A B (t.tileRow a i) (t.tileRow c j) k x).1
      else ElementSum A B mx (t.tileRow a i) (t.tileRow c j) k x
    let only (i : Instr) (P : Tile → Prop) : Prop :=
      ∃ acc ks m, let t' := { t with acc := acc, ks := ks, cr := { t.cr with mstat := m } }
        exec i s = .next ({ s with tile := t' }.advance st) ∧
        (∀ n < 4, n ≠ b.toNat → vget acc n (Vector.replicate 64 (Vector.replicate 64 0)) =
          vget t.acc n (Vector.replicate 64 (Vector.replicate 64 0))) ∧ P t'
    let codeOf (i : Instr) (n : Nat) : Prop :=
      exec i s = .next (s.raise ⟨.shapeerr, shapeTval (encode i) n, none⟩)
    let shapesOk := (A = .bp → t.colb a = 64 ∧ t.colb c = 64) ∧ kSteps mx B (t.colb c) = k
    (shapesOk → smode mx ≠ 2 → s.compacts = [] →
      (a.toNat ∈ t.unsound ∨ c.toNat ∈ t.unsound ∨ 8 + b.toNat ∈ t.unsound) →
      LosesData (.mma st b a c) s st ∧
      ((∀ p ∈ liveEntries (s.readVReg v.toNat) (s.readVReg (v.toNat + 1)), p.1 < t.rows a ∧ p.2 < 64)
        → LosesData (.mmag st b a c v) s st)) ∧
    (shapesOk → t.rows a ≤ 64 → t.rows c ≤ 64 → t.unsound = [] →
      (smode mx = 2 → ∀ i < t.rows a, t.ksOf b.toNat i + k ≤ 128) →
      only (.mma st b a c) fun t' => ∀ i < 64,
        (∀ j < 64, cell t' b.toNat i j = if i < t.rows a ∧ j < t.rows c
          then chain (cell t b.toNat i j) i j else cell t b.toNat i j) ∧
        t'.ksOf b.toNat i = if i < t.rows a then min (t.ksOf b.toNat i + k) 128
          else t.ksOf b.toNat i) ∧
    (shapesOk → smode mx = 2 → (∃ i < t.rows a, 128 < t.ksOf b.toNat i + k) →
      codeOf (.mma st b a c) 5) ∧
    (A = .bp → t.colb a ≠ 64 ∨ t.colb c ≠ 64 → codeOf (.mma st b a c) 3) ∧
    (A ≠ .bp → kSteps mx B (t.colb c) ≠ k → codeOf (.mma st b a c) 1) ∧
    (let live := liveEntries (s.readVReg v.toNat) (s.readVReg (v.toNat + 1))
     shapesOk → t.rows c ≤ 64 → t.unsound = [] → (∀ p ∈ live, p.1 < t.rows a ∧ p.2 < 64) →
       smode mx ≠ 2 →
      only (.mmag st b a c v) fun t' => ∀ i < 64, ∀ j < 64, cell t' b.toNat i j =
        if j < t.rows c then (live.filter fun p => p.2 == i).foldl (fun x p => chain x p.1 j)
          (cell t b.toNat i j)
        else cell t b.toNat i j) ∧
    (t.unsound = [] → only (.mzero st b) fun t' => ∀ i < 64, t'.ksOf b.toNat i = 0 ∧ ∀ j < 64,
      cell t' b.toNat i j = 0) ∧
    (∀ t', exec (.mzero st b) s = .next t' → 8 + b.toNat ∉ t'.tile.unsound)

/-- 10 R251, R253: MDRAIN converts the block of a bank that the view of a tile register selects
into that register: each element, scaled by its row and its column in SMODE 1, is rounded once to
OTYPE, and one of the INT class that goes unscaled to an integer type saturates without a flag in
SMODE 0. The flags of the elements are added to FPFLAGS, and what is drained becomes zero where Z
is 1. MPSUM moves one row into four v registers and clears it and its counter; with one of them
bound it traps ILLOP, and outside SMODE 2 and the INT class SHAPEERR with code 9. Nothing else
changes. One that meets an uncorrectable error in what it reads performs nothing, and DATAERR
follows (10 R263). -/
def Obligations.MatrixResultsAreDrained : Prop :=
  ∀ (s : State) (st : StallCode) (b : BitVec 2) (d : TReg) (z : BitVec 1) (v : VReg) (r : BitVec 5)
    (q : BitVec 1),
    s.vectorUnit = true → s.tile.window = none →
    s.ready [.acc b] [.v v.toNat, .v (v.toNat + 1), .v (v.toNat + 2), .v (v.toNat + 3), .t d, .acc b]
      = true →
    let t := s.tile
    let mx := t.cr.mxcfg
    let o := typeO mx
    let w := o.width
    let cols := t.colb d / (w / 8)
    let row := 32 * q.toNat + r.toNat
    let cell (t : Tile) (n i j : Nat) : Word32 := vget (t.bankRow n i) j 0
    let src : ElemType := if fpClass mx = true then .f32 else .i32
    let scale (x : Word32) : FVal := ElemType.f32.fmt.value x.toNat
    let conv (i j : Nat) : Nat × FpFlags :=
      let x := (cell t b.toNat i j).toNat
      if smode mx = 1 then
        let p := (src.value x).mul (scale (vget t.rs i 0))
        let y := p.1.mul (scale (vget t.cs j 0))
        ((convVal o t.fpMode y.1).1, p.2 ||| y.2 ||| (convVal o t.fpMode y.1).2)
      else if fpClass mx = false ∧ o.isInt = true ∧ smode mx = 0 then
        (o.ofInt (o.clamp (ElemType.i32.toInt x)), 0)
      else if fpClass mx = true ∧ o = .f32 then (x, 0)
      else convVal o t.fpMode (src.value x)
    let bound := ∃ j < 4, t.bound (v.toNat + j) = true
    let sound := 8 + b.toNat ∉ t.unsound
    (s.compacts = [] → ¬sound →
      LosesData (.mdrain st b d z) s st ∧
      (¬bound → smode mx = 2 → fpClass mx = false → LosesData (.mpsum st v b r q) s st)) ∧
    (s.compacts = [] → smode mx = 1 → 12 ∈ t.unsound ∨ 13 ∈ t.unsound →
      LosesData (.mdrain st b d z) s st) ∧
    (8 ≤ w → t.rows d ≤ 64 → t.colb d ≤ 64 → sound →
      (smode mx = 1 → 12 ∉ t.unsound ∧ 13 ∉ t.unsound) →
      ∃ T acc fl, let t' := { t with t := T, acc := acc, cr := { t.cr with fpflags := fl } }
        exec (.mdrain st b d z) s = .next ({ s with tile := t' }.advance st) ∧
        (∀ k < 64, fl.getLsbD k = true ↔ t.cr.fpflags.getLsbD k = true ∨
          ∃ i < t.rows d, ∃ j < cols, (conv i j).2.getLsbD k = true) ∧
        (∀ i < t.rows d, ∀ j < cols, elem (t'.tileRow d i) w j = (conv i j).1 % 2 ^ w) ∧
        (∀ k : TReg, ∀ i < 64, ∀ j < 64, k ≠ d ∨ t.rows d ≤ i ∨ cols * (w / 8) ≤ j →
          elem (t'.tileRow k i) 8 j = elem (t.tileRow k i) 8 j) ∧
        (∀ n < 4, ∀ i < 64, ∀ j < 64, cell t' n i j =
          if n = b.toNat ∧ z = 1 ∧ i < t.rows d ∧ j < cols then 0 else cell t n i j)) ∧
    (bound → exec (.mpsum st v b r q) s = .next (s.illop (encode (.mpsum st v b r q)))) ∧
    (¬bound → v.toNat ≤ 28 → smode mx = 2 → fpClass mx = false → sound →
      ∃ acc ks f, let t' := { t with acc := acc, ks := ks, v := f }
        exec (.mpsum st v b r q) s = .next ({ s with tile := t' }.advance st) ∧
        (∀ n < 4, ∀ p, ∀ e < 16, elem (f.read (v.toNat + n) p) 32 e =
          (cell t b.toNat row (16 * n + e)).toNat) ∧
        (∀ k p, k < v.toNat ∨ v.toNat + 4 ≤ k → f.read k p = t.v.read k p) ∧
        f.late = t.v.late ∧
        (∀ n < 4, ∀ i < 64, (∀ j < 64, cell t' n i j =
          if n = b.toNat ∧ i = row then 0 else cell t n i j) ∧
          t'.ksOf n i = if n = b.toNat ∧ i = row then 0 else t.ksOf n i)) ∧
    (¬bound → smode mx ≠ 2 ∨ fpClass mx = true → exec (.mpsum st v b r q) s =
      .next (s.raise ⟨.shapeerr, shapeTval (encode (.mpsum st v b r q)) 9, none⟩))

/-- 10 R237, R238, R244, R245, R252, R257, R258: configuration of the matrix array and its status.
10 R254 to R256: moves between tile registers and to and from v registers, and the transpose. One
that meets an uncorrectable error in what it reads performs nothing, and DATAERR follows (10
R263). That TCLR ends an error of its register is the model's choice (log 24). -/
def Obligations.MatrixConfigurationAndMoves : Prop :=
  (∀ (s : State) (st : StallCode) (d a : XReg) (k : TReg),
      s.who = .eh → s.tile.frame = none → s.tile.window = none →
      s.ready [.x a, .t k] [.x d, .t k] = true →
      let t := s.tile
      let X := s.readX a
      let rows := min (max (X.toNat % 128) 1) 64
      let colb := min (max ((X.toNat / 256 % 128 + 7) / 8 * 8) 8) 64
      let shape : Word := BitVec.ofNat 64 (256 * colb + rows)
      FetchesX (·.onTile fun t => { t with
          cr := { t.cr with shape := vset t.cr.shape k.toNat shape } })
        (.setshape st d a k) s st d shape ∧
      (mcfgOk X = true → exec (.mcfg st a) s = .next ((s.onTile fun t =>
        { t with cr := { t.cr with mxcfg := X } }).advance st)) ∧
      (mcfgOk X = false → exec (.mcfg st a) s =
        .next (s.raise ⟨.shapeerr, shapeTval (encode (.mcfg st a)) 2, none⟩)) ∧
      (4 ≤ t.rows k → 64 ≤ t.colb k → s.compacts = [] → k.toNat ∈ t.unsound →
        ∀ u, LosesData (.mscale st u k) s st) ∧
      (4 ≤ t.rows k → 64 ≤ t.colb k → t.unsound = [] → ∃ f : Vector Word32 64,
        (∀ i < 64, (vget f i 0).toNat = elem (t.tileRow k (i / 16)) 32 (i % 16)) ∧
        exec (.mscale st 0 k) s = .next ((s.onTile fun t => { t with rs := f }).advance st) ∧
        exec (.mscale st 1 k) s = .next ((s.onTile fun t => { t with cs := f }).advance st)) ∧
      (∀ u, t.rows k < 4 ∨ t.colb k < 64 → exec (.mscale st u k) s =
        .next (s.raise ⟨.shapeerr, shapeTval (encode (.mscale st u k)) 8, none⟩)) ∧
      FetchesX (·.onTile fun t => { t with
          cr := { t.cr with mstat := t.cr.mstat &&& ~~~((X.setWidth 6).setWidth 64) } })
        (.mstatr st d a) s st d t.cr.mstat ∧
      exec (.tclr st k) s = .next ((s.onTile fun t => { t with
        t := vset t.t k.toNat (Vector.replicate 64 0)
        unsound := t.unsound.filter (· != k.toNat) }).advance st)) ∧
  (∀ (s : State) (st : StallCode) (d a : TReg) (v : VReg) (x : XReg) (z : BitVec 2),
      s.who = .eh → s.tile.frame = none → s.tile.window = none → s.tile.bound v.toNat = false →
      s.ready [.x x, .t a, .t d, .v v.toNat] [.v v.toNat, .t a, .t d] = true →
      let t := s.tile
      t.rows a ≤ 64 → t.rows d ≤ 64 → t.colb a ≤ 64 → t.colb d ≤ 64 →
      let w := 2 ^ z.toNat
      let m := t.rows a
      let n := t.colb a
      let writes (i : Instr) (k : TReg) (P : Tile → Prop) : Prop :=
        ∃ T, let t' := { t with t := T }
          exec i s = .next ({ s with tile := t' }.advance st) ∧
          (∀ j < 8, j ≠ k.toNat → vget T j (Vector.replicate 64 0) =
            vget t.t j (Vector.replicate 64 0)) ∧ P t'
      let j := (s.readX x).toNat
      (s.compacts = [] → a.toNat ∈ t.unsound →
        (m ≤ t.rows d → n ≤ t.colb d → LosesData (.tmov st d a) s st) ∧
        (j < m → LosesData (.tmovv st v 0 a x) s st) ∧
        (n / w ≤ t.rows d → m * w ≤ t.colb d → LosesData (.ttrans st d z a) s st)) ∧
      (m ≤ t.rows d → n ≤ t.colb d → t.unsound = [] → writes (.tmov st d a) d fun t' =>
        ∀ i < 64, ∀ e < 64, elem (t'.tileRow d i) 8 e =
          if i < m ∧ e < n then elem (t.tileRow a i) 8 e else elem (t.tileRow d i) 8 e) ∧
      (j < m → (t.unsound = [] → ∃ f : RegFile 32 512,
          exec (.tmovv st v 0 a x) s = .next ((s.onTile fun t => { t with v := f }).advance st) ∧
          ∀ r p, f.read r p = if r = v.toNat
            then BitVec.ofNat 512 ((t.tileRow a j).toNat % 2 ^ (8 * n)) else t.v.read r p) ∧
        writes (.tmovv st v 1 a x) a fun t' => ∀ i < 64, ∀ e < 64, elem (t'.tileRow a i) 8 e =
          if i = j ∧ e < n then elem (s.readV v) 8 e else elem (t.tileRow a i) 8 e) ∧
      (m ≤ j → exec (.tmovv st v 0 a x) s =
        .next (s.raise ⟨.shapeerr, shapeTval (encode (.tmovv st v 0 a x)) 7, none⟩)) ∧
      (n / w ≤ t.rows d → m * w ≤ t.colb d → t.unsound = [] → writes (.ttrans st d z a) d fun t' =>
        (∀ i < m, ∀ e < n / w,
          elem (t'.tileRow d e) (8 * w) i = elem (t.tileRow a i) (8 * w) e) ∧
        ∀ i < 64, ∀ e < 64, n / w ≤ i ∨ m * w ≤ e →
          elem (t'.tileRow d i) 8 e = elem (t.tileRow d i) 8 e) ∧
      (t.rows d < m ∨ t.colb d < n → exec (.tmov st d a) s =
        .next (s.raise ⟨.shapeerr, shapeTval (encode (.tmov st d a)) 6, none⟩)))

/-- 10 R260, R261, R265: MGANG leaves the arrival of its tile and waits; the window opens at every
member once all have arrived with one word, and one of a single tile leaves it as it was (10
R265); a leader's instruction acts on every member and counts the window down; 65,536 cc without a
member trap those that have arrived. What an event acts on, and that a machine at rest answers at
once, are the model's choices (logs 5 and 6). -/
def Obligations.GangWindowsOpenActAndTimeOut : Prop :=
  (∀ (s : State) (st : StallCode) (a : XReg), s.who = .eh → s.tile.frame = none →
    s.ready [.x a] [] = true →
    let X := s.readX a
    let w := encode (.mgang st a)
    (s.tile.arrival = none → s.tile.window = none → X.getLsbD (s.cur % 8) = true →
      X.getLsbD ((X.toNat / 256) % 8) = true → X.getLsbD 11 = false →
      s.arrivals (s.jointMask (s.cur % 8) (X.setWidth 8)) = [] →
      exec (.mgang st a) s = .next ((s.onTile fun t => { t with
        arrival := some ⟨BitVec.ofNat 64 (X.toNat % 2 ^ 20), s.cc, w, false⟩ }).stay 0)) ∧
    (∀ g, s.tile.arrival = some g → g.opened = true → exec (.mgang st a) s =
      .next ((s.onTile fun t => { t with arrival := none }).advance st)) ∧
    (∀ g, s.tile.arrival = some g → g.opened = false → exec (.mgang st a) s = .next (s.stay 0)) ∧
    (s.tile.arrival = none → s.tile.window = none → X.getLsbD (s.cur % 8) = false →
      exec (.mgang st a) s = .next (s.raise ⟨.gangerr, shapeTval w 1, none⟩))) ∧
  (∀ (s : State) (g : GangArrival), s.arg.tile = s.cur → s.tile.arrival = some g →
    g.opened = false →
    let mask := g.word.setWidth 8
    let lead := g.word.toNat / 256 % 8
    let all := maskMembers mask
    let here (p : Nat) : Option GangArrival := (s.getTile (s.rowTile p)).arrival
    ((∀ p ∈ all, ∃ x, here p = some x ∧ x.opened = false) → s.gangPlaced mask lead = true →
      ∃ t, exec .gangWindowOpen s = .next t ∧ ∀ p ∈ all, ∃ x,
        here p = some x ∧ t.getTile (s.rowTile p) = { s.getTile (s.rowTile p) with
          window := if all = [lead] then none
            else some ⟨mask, lead, g.word.toNat / 4096 % 256 + 1⟩
          arrival := some { x with opened := true } }) ∧
    ((∃ p ∈ all, here p = none) → s.cc < g.at_ + 65536 →
      (∀ p ∈ all, ∀ x, here p = some x → s.cc < x.at_ + 65536) →
      exec .mgangTimeout s = .next s) ∧
    ((∃ p ∈ all, here p = none) → g.word.getLsbD (s.cur % 8) = true → g.at_ + 65536 ≤ s.cc →
      exec .mgangTimeout s = .next (s.gangTrap mask 3))) ∧
  (∀ (s : State) (st : StallCode) (b : BitVec 2) (w : GangWindow), s.who = .eh →
    s.tile.frame = none → s.ready [] [.acc b] = true → s.tile.window = some w →
    (w.lead ≠ s.cur % 8 → exec (.mzero st b) s = .next (s.stay 0)) ∧
    (w.lead = s.cur % 8 → w.mask.getLsbD (s.cur % 8) = true →
      (∀ p ∈ maskMembers w.mask, (s.getTile (s.rowTile p)).window = some w) →
      ∃ t : State, exec (.mzero st b) s = .next (t.advance st) ∧
        ∀ p ∈ maskMembers w.mask, t.getTile (s.rowTile p) =
          { (s.getTile (s.rowTile p)).mzero b.toNat with
            window := if w.count ≤ 1 then none else some { w with count := w.count - 1 } }))

/-- 11 R266 to R270, R277 to R286, 12 R309, R311: a command whose operands are accepted, with a
free slot and the hart's writes performed, enters its slot and returns its sequence number; with
two commands in the slots it waits, and refused operands trap. That a machine at rest answers a
request at once is the model's choice (log 6). -/
def Obligations.EngineCommandsEnterTheirSlots : Prop :=
  ∀ (s : State) (st : StallCode) (d a b : XReg),
    s.who = .eh → s.alone = true → s.tile.late = [] →
    s.ready [.x a, .x (a + 1), .x (a + 2), .x (a + 3), .x b] [.x d] = true →
    let ops := [s.readX a, s.readX (a + 1), s.readX (a + 2), s.readX (a + 3)]
    let w (k : Nat) : Nat := (ops.getD k 0).toNat
    let tag := ops.getD 3 0
    let seq := s.tile.nextSeq
    let accepts (i : Instr) (engine kind : Nat) (tag ctl : Word) (l : List Word) : Prop :=
      ((s.tile.onEngine engine).length < 2 →
        FetchesX (fun s => (s.accept engine kind tag ctl l).noteSide true) i s st d
          (BitVec.ofNat 64 seq)) ∧
      (2 ≤ (s.tile.onEngine engine).length → exec i s = .next (s.stay 0))
    let refused (i : Instr) (engine kind : Nat) : Prop :=
      exec i s = .next (s.raise ⟨if engine = 2 then .burinfault else .engfault,
        engTval true 2 kind engine seq, none⟩)
    (w 2 < 2 ^ 36 → (w 1 < w 0 → w 1 + w 2 ≤ w 0) → accepts (.cpy st d a) 0 0 tag 0 ops) ∧
    (2 ^ 36 ≤ w 2 ∨ (w 1 < w 0 ∧ w 0 < w 1 + w 2) → refused (.cpy st d a) 0 0) ∧
    (w 0 % 64 = 0 → accepts (.cpyd st d a) 0 1 0 0 [s.readX a]) ∧
    (w 0 % 64 ≠ 0 → exec (.cpyd st d a) s = .next (s.raise ⟨.misalign, s.readX a, none⟩)) ∧
    (w 2 < 2 ^ 36 → accepts (.cpyfill st d a) 0 2 tag 0 ops) ∧
    (ringRefused (s.cur % 32) ops (s.readX b) = false →
      accepts (.rrot st d a b) 0 3 tag (s.readX b) ops) ∧
    (collectiveRefused true ops = false → accepts (.allred st d a) 1 4 tag (ops.getD 2 0) ops) ∧
    (collectiveRefused false ops = false →
      accepts (.bcastc st d a) 1 5 tag (ops.getD 2 0) ops) ∧
    (w 0 % 128 = 0 →
      (f32Refused ((ops.getD 1 0).setWidth 32) = false →
        f32Refused (((ops.getD 1 0) >>> 32).setWidth 32) = false →
        ops.getD 2 0 &&& ~~~0x17F#64 = 0 → 1 ≤ w 2 % 128 → w 2 % 128 ≤ 64 →
        accepts (.bcfg st d a) 2 0 tag 0 ops) ∧
      (f32Refused ((ops.getD 1 0).setWidth 32) = true → refused (.bcfg st d a) 2 0) ∧
      (w 1 % 128 = 0 →
        accepts (.broot st d a) 2 1 tag 0 ops ∧ accepts (.bback st d a) 2 4 tag 0 ops ∧
        accepts (.breroot st d a) 2 6 tag 0 ops ∧ accepts (.bdrop st d a) 2 8 tag 0 ops ∧
        (1 ≤ w 2 → w 2 ≤ 2 ^ 20 → accepts (.bpool st d a) 2 5 tag 0 ops) ∧
        (w 2 % 128 = 0 → w 3 % 2 ^ 16 ≤ 255 → accepts (.bexp st d a) 2 3 (tag >>> 16) 0 ops)) ∧
      (w 2 % 8 = 0 → 1 ≤ w 1 → w 1 ≤ 256 → accepts (.bdesc st d a) 2 2 tag 0 ops)) ∧
    (w 0 % 128 ≠ 0 →
      exec (.broot st d a) s = .next (s.raise ⟨.misalign, s.readX a, none⟩))

/-- 11 R271 to R276, R292: INBDQ takes the oldest record into four registers and acquires,
INBPEEK counts the records, INBCFG sets THRESH, INH excepted, and the count word; UIRET leaves
the user-level handler for UEPC and traps ILLOP outside one. 12 R310: BSTAT reads a header word
at its home. That the acquire of INBDQ also drops the tile's unowned lines is the model's choice
(log 32); so is it that a machine at rest answers a request at once (log 6). -/
def Obligations.InboxAndHeaderWordsAreRead : Prop :=
  (∀ (s : State) (st : StallCode) (d a b : XReg) (x : Xlat),
      s.who = .eh → s.alone = true → s.ready [.x a, .x b] [.x d] = true →
      (s.readX a).toNat % 128 = 0 →
      s.check { kind := .load, align := 0 } (s.readX a + 8 * (s.readX b &&& 15)) = .ok x →
      s.isLocal x.pa = true → memoryAt (localAddr x.pa) = true →
      s.uncached (lineOf (localAddr x.pa)) = true →
      FetchesX State.numbered (.bstat st d a b) s st d
        (BitVec.ofNat 64 (s.readMem (localAddr x.pa) 8))) ∧
  (∀ (s : State) (st : StallCode) (d : XReg), s.who = .eh →
    s.ready [] [.x d, .x (d + 1), .x (d + 2), .x (d + 3)] = true →
    (s.tile.inbox = [] → exec (.inbdq st d) s = .next (s.stay 0)) ∧
    (∀ r rest, s.tile.inbox = r :: rest →
      let s' := (s.onTile fun t => { t with inbox := rest }).acquire
      (d ≠ 0 → exec (.inbdq st d) s = .next (((((s'.commitX d r.w0).commitX (d + 1) r.w1).commitX
        (d + 2) r.w2).commitX (d + 3) r.w3).advance st)) ∧
      (d = 0 → exec (.inbdq st d) s = .next (s'.advance st))) ∧
    GivesX (.inbpeek st d) s st d (BitVec.ofNat 64 s.tile.inbox.length) 0) ∧
  (∀ (s : State) (st : StallCode) (a b : XReg), s.who = .eh → s.ready [.x a, .x b] [] = true →
    let v := s.readX a
    let c := s.readX b
    let th := v.toNat / 256 % 256
    (v &&& ~~~0xFF07#64 = 0 → 1 ≤ th → th ≤ 32 → (c.getLsbD 0 = true → c.toNat / 2 % 4 = 0) →
      exec (.inbcfg st a b) s = .next ((s.onTile fun t => { t with
        inbcntLevel := t.level
        cr := { t.cr with
          inbctl := (t.cr.inbctl &&& ~~~0xFF07#64) ||| v
          inbcnta := c &&& ~~~6#64 } }).advance st)) ∧
    (v &&& ~~~0xFF07#64 ≠ 0 ∨ th = 0 ∨ 32 < th → exec (.inbcfg st a b) s = .next
      (s.raise ⟨.engfault, engTval true 2 8 3 s.tile.nextSeq, none⟩))) ∧
  (∀ s : State, s.who = .eh → s.drained = true →
    let z := s.settle
    (s.tile.inh = true → s.tile.cr.framepos.getLsbD 63 = false → exec .uiret s =
      .next ((z.onTile fun t => { t with
        cr := { t.cr with inbctl := t.cr.inbctl &&& ~~~0x10#64 } }).goTo z.tile.cr.uepc 0)) ∧
    (s.tile.inh = false → exec .uiret s = .next (z.illop (s.withStall (encode .uiret)))))

/-- 11 R267, R269, R271, R273, R277 to R287: the steps of the copy engine, the begin of a command
in its turn, the posting of a completion and the timeout of a collective. `n` is the tile. CPYFILL
writes its pattern, CPY and CPYD the bytes of their source, which one or two of its sectors hold.
A rotation whose members have all issued gives every member the bytes of the one `shift` places
before it. An ALLRED gives every member, elementwise, the reduction of all sources, and a BCASTC
the root's bytes; the operands are untranslated ones in HBM, each within a sector. What an event
acts on, and that a machine at rest answers at once, are the model's choices (logs 5 and 6). -/
def Obligations.EngineStepsMoveAndComplete : Prop :=
  ∀ (s : State) (n : Nat) (c : Command), s.alone = true → s.arg.tile = n →
    let t := s.getTile n
    (s.current n 0 = some c → c.begun = false →
      (s.turnDue n 0 = false → exec .cpySectorWrite s = .next s) ∧
      (s.turnDue n 0 = true → s.behindArea n 0 = false → exec .cpySectorWrite s =
        .next ((s.beginCmd n c).workOn n { c with begun := true } none))) ∧
    (s.current n 0 = some c → c.begun = true → c.kind = 2 → c.waiting = none →
      0 < (c.ops.getD 2 0).toNat → c.row = 0 → c.pos < (c.ops.getD 2 0).toNat → ∀ la,
      let dst := ((c.ops.getD 0 0).toNat + c.pos) % 2 ^ 64
      let len := min (64 - dst % 64) ((c.ops.getD 2 0).toNat - c.pos)
      s.engineAt n c engWrite dst la → la % 64 = dst % 64 →
      let byte (b : Nat) : Byte := (c.ops.getD 1 0).extractLsb' (8 * (b % 8)) 8
      let last := (c.ops.getD 2 0).toNat ≤ c.pos + len
      let c' := { c.freed with
        done := c.done + len, pos := if last then 0 else c.pos + len
        row := if last then 1 else 0, copy := none, buffer := [] }
      exec .cpySectorWrite s =
        .next ((s.engineWrite c n ⟨s.device * 2 ^ 44 + la, false, false, none⟩ len
        (readLE byte dst len)).setCmd n (if last then c'.endWith 0 0 0 0 else c'))) ∧
    (∀ e rest, s.arg.n₁ = c.engine → t.onEngine c.engine = c :: rest → c.ended = some e →
      c.engine ≤ 2 → s.current n c.engine = none → t.inbox.length < 32 →
      t.cr.inbcnta.getLsbD 0 = false →
      ∃ u, exec .engineCompletionPost s = .next u ∧
        (u.getTile n).inbox = t.inbox ++ [c.record e] ∧
        (u.getTile n).cmds = t.cmds.filter (fun x => !(x.seq == c.seq && x.engine == c.engine)) ∧
        (u.getTile n).deferred = t.deferred ++
          (if e.status = 1 ∧ t.cr.inbctl.getLsbD 2 = true then
            [⟨(if c.engine = 2 then Cause.burinfault else .engfault).code,
              engTval false e.code c.kind c.engine c.seq, e.mfinfo⟩] else []) ∧
        u.mem = s.mem) ∧
    (s.arg.n₁ = 1 → s.arg.flag = false →
      (t.cmds.find? fun c => c.grouped && c.engine == 1) = some c →
      let ms := s.members n c.gsel
      let l := s.issued ms c.setKey
      l.length < ms.length → (∀ m ∈ ms, s.gangStopped m = false) →
      ((∀ p ∈ l, s.cc < p.2.since + 2 ^ 24) → exec .collectiveTimeout s = .next s) ∧
      ((∃ p ∈ l, p.2.since + 2 ^ 24 ≤ s.cc) → exec .collectiveTimeout s =
        .next ((ms.filter fun m => !(l.any fun p => s.ownerHart p.1 == m)).foldl
          (fun s m => s.modTile m fun t => { t with late := t.late ++ [c.setKey] })
          (s.endAll l 1 5)))) ∧
    (s.current n 0 = some c → c.begun = true →
      let w (k : Nat) : Nat := (c.ops.getD k 0).toNat
      let q (k : Nat) : Word := c.desc.getD k 0
      let moves (dst src size rows : Nat) : Prop :=
        c.row < rows → c.pos < size → c.buffer = [] → ∀ la la₀ la₁,
        let len := min (64 - dst % 64) (size - c.pos)
        let first := min len (64 - src % 64)
        s.engineAt n c engWrite dst la → la % 64 = dst % 64 →
        s.engineAt n c engRead src la₀ → la₀ % 64 = src % 64 →
        (first < len → s.engineAt n c engRead ((src + first) % 2 ^ 64) la₁ ∧ la₁ % 64 = 0) →
        let last := size ≤ c.pos + len
        let c' := { c.freed with
          done := c.done + len, pos := if last then 0 else c.pos + len
          row := if last then c.row + 1 else c.row, copy := none, buffer := [] }
        ∃ v, exec .cpySectorWrite s =
          .next ((s.engineWrite c n ⟨s.device * 2 ^ 44 + la, false, false, none⟩ len v).setCmd n
            (if last ∧ rows = c.row + 1 then c'.endWith 0 0 0 0 else c')) ∧
          ∀ i < len, byteOf v i =
            s.readByte (if i < first then la₀ + i else la₁ + (i - first))
      let at_ (base stride : Word) : Nat :=
        ((base.toNat + c.row * stride.toInt + c.pos) % (2 ^ 64 : Nat) : Int).toNat
      (c.kind = 0 → c.row = 0 →
        moves ((w 0 + c.pos) % 2 ^ 64) ((w 1 + c.pos) % 2 ^ 64) (w 2) 1) ∧
      (c.kind = 1 → c.desc ≠ [] →
        moves (at_ (q 0) (q 4)) (at_ (q 1) (q 5)) (q 2).toNat (q 3).toNat)) ∧
    (s.current n 0 = some c → c.begun = true → c.isRing = true → c.awaits = true →
      let ms := s.ringTiles n (s.ringClosure n 32 c.mask)
      let l := s.matched ms 0 fun c => c.isRing && c.awaits
      let size := (c.ops.getD 2 0).toNat
      let shift := c.ctl.toNat / 2 ^ 32 % 32
      let at_ (p : Nat × Command) (k : Nat) : Nat := (p.2.ops.getD k 0).toNat
      ms.Nodup → l.map (·.1) = ms → size % 64 = 0 →
      (∀ p ∈ l, p.1 < 2048 ∧ samePlace (s.placeOf n) (s.placeOf p.1) = true ∧
        p.2.ctl = c.ctl ∧ p.2.ops.getD 2 0 = c.ops.getD 2 0 ∧ p.2.buffer = [] ∧
        ∀ k < 2, at_ p k % 64 = 0 ∧ at_ p k + size ≤ 0x80000 ∧
          ∀ o < size, (s.getTile p.1).scratch ((at_ p k + o) / 0x10000) = true) →
      ∃ u, exec .cpySectorWrite s = .next u ∧ u.mem = s.mem ∧
        (∀ m, m ∉ ms → u.getTile m = s.getTile m) ∧
        ∀ p x k, l[k]? = some p → l[(k + l.length - shift % l.length) % l.length]? = some x →
          (∀ o < size, (u.getTile p.1).windowByte (at_ p 1 + o) =
            (s.getTile x.1).windowByte (at_ x 0 + o)) ∧
          ∃ y ∈ (u.getTile p.1).cmds, y.seq = p.2.seq ∧ y.engine = 0 ∧ y.done = size ∧
            y.ended = some ⟨0, 0, 0, 0, none⟩) ∧
    (s.current n 1 = some c → c.begun = true → s.arg.n₁ = 1 → s.arg.flag = false →
      s.farMembers n c.gsel = false → t.cr.inbcnta.getLsbD 0 = false →
      let l := s.matchedColls n c.gsel
      let size := c.ctl.toNat % 2 ^ 16 + 1
      let va (p : Nat × Command) (k : Nat) : Nat := (p.2.ops.getD k 0).toNat
      let la (p : Nat × Command) (k : Nat) : Nat := localAddr (va p k)
      (s.members n c.gsel).Nodup → l.map (·.1) = s.members n c.gsel → (n, c) ∈ l →
      (∀ p ∈ l, p.2.level = 2 ∧ p.2.ctl = c.ctl ∧ p.2.tag = c.tag ∧ p.2.kind = c.kind ∧
        p.2.buffer = [] ∧ p.2.done = 0 ∧
        ∀ k < 2, regionOf (la p k) = .hbm ∧ va p k % 64 + size ≤ 64 ∧
          s.engineAt p.1 p.2 (if k = 0 then engRead else engWrite) (va p k) (la p k)) →
      (∀ p ∈ l, ∀ x ∈ l, p.1 ≠ x.1 → la p 1 / 64 ≠ la x 1 / 64) →
      let old (p : Nat × Command) : Nat := s.readMem (la p 0) size
      let gives (result : Nat → Prop) (flags : BitVec 5 → Prop) : Prop :=
        ∃ u, exec .engineCompletionPost s = .next u ∧ ∀ p ∈ l, result (u.readMem (la p 1) size) ∧
          (p.1 ≠ n → ∃ y ∈ (u.getTile p.1).cmds, y.seq = p.2.seq ∧ y.engine = 1 ∧ y.done = size ∧
            ∃ fl, y.ended = some ⟨0, 0, 0, fl, none⟩ ∧ flags fl)
      (c.kind = 4 → ∀ e, ElemType.ofCode (slice c.ctl 16 4) = some e →
        let w := e.width
        let op := c.ctl.toNat / 2 ^ 20 % 8
        let reduces (f : Nat → List Nat → Prop) (flags : BitVec 5 → Prop) : Prop :=
          gives (fun v => ∀ k < 8 * size / w,
            f (v / 2 ^ (w * k) % 2 ^ w) (l.map fun p => old p / 2 ^ (w * k) % 2 ^ w)) flags
        (op = 0 → e.isFp = false →
          reduces (fun v xs => v = e.ofInt (xs.map e.toInt).sum % 2 ^ w) (· = 0)) ∧
        (op = 0 → e.isFp = true → reduces (fun v xs =>
          v = (fSum e arrayMode (xs.map e.fmt.value)).1 % 2 ^ w) fun _ => True) ∧
        (op = 1 ∨ op = 2 → e.isFp = false → reduces (fun v xs => ∃ y ∈ xs, v = y ∧ ∀ z ∈ xs,
          if op = 1 then e.toInt y ≤ e.toInt z else e.toInt z ≤ e.toInt y) (· = 0)) ∧
        (op = 1 ∨ op = 2 → e.isFp = true → reduces (fun v xs => v = xs.foldl
          (if op = 1 then fMin e else fMax e) e.fmt.canonNaN % 2 ^ w) (· = 0)) ∧
        (op = 3 → reduces (fun v xs => ∀ b < w, v.testBit b = xs.all (·.testBit b)) (· = 0)) ∧
        (op = 4 → reduces (fun v xs => ∀ b < w, v.testBit b = xs.any (·.testBit b)) (· = 0)) ∧
        (op = 5 → reduces (fun v xs => v = xs.foldl (· ^^^ ·) 0) (· = 0))) ∧
      (c.kind = 5 → ∀ p, l[c.ctl.toNat / 2 ^ 32 % 2 ^ 21]? = some p →
        gives (fun v => v = old p) (· = 0)))

/-- 12 R297 to R309: the steps of the Burin engine, for a command that it has begun, on a tree
whose lines are reachable. `h` is the header at `hla`, whose words the engine reads and writes. An
extent of a reclaim is appended to the tail of its pool, here an empty one. What an event acts on,
and that a machine at rest answers at once, are the model's choices (logs 5 and 6). -/
def Obligations.BurinStepsChangeTheTree : Prop :=
  (∀ (s : State) (c : Command) (hla nla : Nat), s.alone = true →
    s.current s.arg.tile 2 = some c → c.begun = true →
    let n := s.arg.tile
    let g := s.agent n c
    let h := s.lineWords hla 16
    let H (k : Nat) : Word := h.getD k 0
    let ws := s.lineWords nla 4
    let W (k : Nat) : Word := ws.getD k 0
    s.treeAt g c.header hla → headerValid h = true → hla ≠ nla →
    (c.kind = 2 →
      (c.started = false →
        let b := (H 2).toNat % 128
        1 ≤ b → b ≤ 64 → f32Refused ((H 1).setWidth 32) = false →
        f32Refused ((H 1 >>> 32).setWidth 32) = false →
        exec .descentStep s = .next (s.setCmd n { c.freed with started := true, desc := h })) ∧
      (c.started = true → c.descents = [] → s.arg.n₁ = 0 → 1 ≤ (c.ops.getD 1 0).toNat →
        s.walkersBusy (dieOf (s.homeTile n)) < 16 →
        exec .descentStep s = .next ((s.treeWrite g hla [(6, H 6 + 1), (8, H 8 + 1)]).setCmd n
          { c.freed with descents := [⟨[], H 0, 0, (H 1).setWidth 32, (H 1 >>> 32).setWidth 32, 0,
            none, none, [], false, 0, none, none, false, none⟩] })) ∧
      (∀ d, c.started = true → c.descents = [d] → s.arg.n₁ = 0 → d.entry = none → d.outcome = none →
        d.select = none → s.treeAt g d.node nla → nodeState ws = 0 → nodeVl ws < 65535 →
        exec .descentStep s =
          .next ((s.treeWrite g nla [(1, putState (putVl (W 1) (nodeVl ws + 1)) 1)]).setCmd n
            { c with descents := [{ d with
              depth := nodeDepth ws, steps := d.steps + 1, path := d.path ++ [d.node],
              outcome := some .leaf, code := 0, undo := [], headerDue := false }] })) ∧
      (∀ ds, c.started = true → c.descents = ds → ds ≠ [] → c.batches = 0 → ds.length ≤ c.batch →
        c.last = ds.length → (∀ d ∈ ds, d.entry.isSome = true ∧ d.failed = false ∧
          d.outcome = some .leaf) →
        (s.getTile n).inbox.length < 32 → (s.getTile n).cr.inbcnta.getLsbD 0 = false →
        ((s.getTile n).onEngine 2).head? = some c →
        ∃ u, exec .batchPost s = .next u ∧ (u.getTile n).inbox = (s.getTile n).inbox ++
          [{ w0 := BitVec.ofNat 64 (0x220000 + c.seq % 65536)
             w1 := c.tag
             w2 := BitVec.ofNat 64 (65536 * (ds.length % 256) + 256 * (ds.length % 256))
             w3 := c.ops.getD 2 0 }])) ∧
    (c.kind = 3 → c.children < c.pos → s.treeAt g (c.ops.getD 1 0) nla →
      exec .bexpLeafCommit s = .next (((s.treeWrite g nla
        [(1, setSlice (putState (W 1) 2) 32 8 (BitVec.ofNat 8 c.children)), (2, c.cursor)]).treeWrite
          g hla [(10, H 10 + 1)]).setCmd n (c.endBurin 0 c.cursor 0).freed)) ∧
    ((c.kind = 4 ∨ c.kind = 8) → c.started = true →
      (c.cursor ≠ 0 → s.treeAt g c.cursor nla → W 3 = 0 ∨ c.pos + 1 ≠ 65536 →
        let w1 := putVl (if c.pos = 0 ∧ nodeState ws = 1 then putState (W 1) 0 else W 1)
          (nodeVl ws - 1)
        let visits : BitVec 32 := BitVec.ofNat 32 (min ((W 0).toNat % 2 ^ 32 + 1) (2 ^ 32 - 1))
        let sum := f32add ((W 0 >>> 32).setWidth 32) c.value
        let c' := { c.freed with
          pos := c.pos + 1, cursor := W 3
          value := if c.row = 1 then c.value ^^^ 0x80000000#32 else c.value }
        (c.kind = 4 → exec .bbackPass s =
          .next ((s.treeWrite g nla [(0, sum ++ visits), (1, w1)]).setCmd n c')) ∧
        (c.kind = 8 → exec .bdropPass s =
          .next ((s.treeWrite g nla [(1, w1)]).setCmd n c'))) ∧
      (c.cursor = 0 → c.pos ≠ 0 → H 6 ≠ 0 →
        let c' := (c.endBurin 0 (BitVec.ofNat 64 c.pos) 0).freed
        (c.kind = 4 → exec .bbackPass s =
          .next ((s.treeWrite g hla [(6, H 6 - 1), (11, H 11 + 1)]).setCmd n c')) ∧
        (c.kind = 8 → exec .bdropPass s =
          .next ((s.treeWrite g hla [(6, H 6 - 1)]).setCmd n c'))))) ∧
  (∀ (s : State) (r : Reclaim) (a : Word) (k hla ela : Nat), s.alone = true → s.arg.n₁ = 0 →
      s.reclaims = [r] → r.extents = [(a, k)] →
      let g : EngineAgent := ⟨r.tile, r.ctx, r.level, r.trbase, 0, 0⟩
      let H (k : Nat) : Word := (s.lineWords hla 16).getD k 0
      s.treeAt g r.header hla → s.treeAt g a ela → hla ≠ ela → H 4 = 0 →
      (∀ p ∈ s.tiles, p.2.cmds = []) →
      let s' := (s.treeWrite g ela [(0, 0)]).treeWrite g ela [(1, BitVec.ofNat 64 k)]
      exec .reclaimAppend s = .next { s'.treeWrite g hla [(3, a), (4, a),
        (5, H 5 + BitVec.ofNat 64 k), (7, H 7 - BitVec.ofNat 64 k)] with reclaims := [] })

/-- 02 R44, R45, 04 R76: an instruction that completes moves its unit on: the pc is the given one,
the issue position rises by one and the wait, and the reads of x registers at the new position or
later give what they would have given. A replayed word moves the replay to its next word, its next
iteration, or its end, and the execute hart stays where it is. -/
def Obligations.CompletingMovesTheUnitOn : Prop :=
  (∀ (s : State) (pc : Word) (w : Nat), s.who ≠ .vs →
    let t := s.goTo pc w
    t = (s.onTile fun u => { u with stuckSince := none }).setCore t.core ∧
    t.pc = pc ∧ t.pos = s.pos + 1 + w ∧ t.core.wait = 0 ∧
    ∀ r p, r < 40 → t.pos ≤ p → t.core.x.read r p = s.core.x.read r p) ∧
  (∀ (s : State) (f : FrameRun) (pc : Word) (w : Nat), s.who = .vs → s.tile.frame = some f →
    let t := s.goTo pc w
    let c := f.frame.toNat / 2 ^ 10 % 256
    t = s.onTile (fun _ => t.tile) ∧ t.pc = s.pc ∧
    (f.at_ + 1 < f.words.length →
      t.tile.frame = some { f with at_ := f.at_ + 1, pos := f.pos + 1 + w }) ∧
    (f.words.length ≤ f.at_ + 1 → f.iter < c →
      t.tile.frame = some { f with iter := f.iter + 1, at_ := 0, pos := f.pos + 1 + w }) ∧
    (f.words.length ≤ f.at_ + 1 → c ≤ f.iter → t.tile.frame = none))

/-- 04 R74 to R77: FRAME captures the N + 1 words that follow it, all of which may be captured,
and the hart goes on behind them while the vector sequencer replays them; a word that may not be
captured traps FRAMEERR with its place. A register field of a replayed word rises by the stride
times the iteration, modulo 32, where FRAME selects it, and no other bit of the word changes. -/
def Obligations.FrameCapturesAndReplaysItsWindow : Prop :=
  (∀ (s : State) (st : StallCode) (n : BitVec 4) (c : BitVec 8) (t : BitVec 3) (x y z : BitVec 1)
    (ws : Nat → Word32), s.who = .eh → s.tile.frame = none → s.injected = [] →
    (∀ q ∈ s.tile.reqs, q.unit = .eh → ∀ r e, q.dest.writesV r = false ∧
      q.dest.writesT r = false ∧ q.dest ≠ .queue r e) →
    (∀ k ≤ n.toNat, s.fetchWord (s.pc + BitVec.ofNat 64 (4 * (k + 1))) = .ok (ws k)) →
    let w := encode (.frame st n c t x y z)
    ((∀ k ≤ n.toNat, s.tile.frameOk w (ws k) = true) →
      exec (.frame st n c t x y z) s = .next ((s.onTile fun u => { u with
        frame := some ⟨s.pc, w, (List.range (n.toNat + 1)).map ws, 0, 0,
          s.pos + n.toNat + 2, s.fresh⟩ }).goTo (s.pc + BitVec.ofNat 64 (4 * (n.toNat + 2)))
            (n.toNat + 1 + stallWait st))) ∧
    (∀ k ≤ n.toNat, s.tile.frameOk w (ws k) = false →
      (∀ j < k, s.tile.frameOk w (ws j) = true) →
      exec (.frame st n c t x y z) s =
        .next (s.raise ⟨.frameerr, BitVec.ofNat 64 (k * 2 ^ 32 + (ws k).toNat), none⟩))) ∧
  (∀ (frame w : Word32) (i : Nat),
    let u := frameWord frame w i
    let add (b k : Nat) : Nat := if frame.getLsbD b = true then
      (k + i * (frame.toNat / 2 ^ 7 % 8)) % 32 else k
    u.toNat / 2 ^ 17 % 32 = add 6 (w.toNat / 2 ^ 17 % 32) ∧
    u.toNat / 2 ^ 12 % 32 = add 5 (w.toNat / 2 ^ 12 % 32) ∧
    u.toNat / 2 ^ 7 % 32 = add 4 (w.toNat / 2 ^ 7 % 32) ∧
    ∀ b < 32, b < 7 ∨ 22 ≤ b → u.getLsbD b = w.getLsbD b) ∧
  (∀ (s : State) (f : FrameRun) (i : Instr), s.tile.frame = some f → s.tile.run = .running →
    let w := frameWord f.frame (f.words.getD f.at_ 0) f.iter
    let s' := { s with who := .vs, exc := false, tile := { s.tile with loading := false } }
    decodeWord w = .ok i → s.vsTurn = s'.boundary (exec i { s' with ir := w }))

/-- 16 R399 to R403: CRR reads a control register at its read level; CRW writes X[A] to the fields
of one with a write level, CRSET sets and CRCLR clears the bits that X[A] names, and a MSTAT bit
is cleared where CRW writes it as 1. Nothing else changes, and one without a write level keeps its
value. A write of SEGMODE converts the segments that change, in one step or, where the model lets
it take several (log 6), one after another. That a write of BARSTAT is no arrival of an
instruction is the model's choice (log 69). -/
def Obligations.ControlRegistersAreReadAndWritten : Prop :=
  ∀ (s : State) (st : StallCode) (d a : XReg) (n : BitVec 10) (r : Nat) (w : Option Nat),
    s.who = .eh → s.drained = true → s.ready [.x a] [.x d] = true →
    crLevels n.toNat = some (r, w) → r ≤ s.tile.level →
    let z := s.settle
    let v := z.readX a
    let old := z.readCr n.toNat
    let go (t : State) : State := (t.noteSide true).goTo (z.pc + 4) 0
    let plain : List (Nat × Nat) := [(0x03, 0x1F), (0x05, 1), (0x06, 0x8FFFFFFFFFFFFFFC),
      (0x08, 0xFFFFFFFFFFFFFFFC), (0x09, 0xFFFFFFFFFFFFFFFC), (0x0C, 0x8000003FFFFFFFFF),
      (0x1B, 0x3F), (0x21, 0x00FFFFFFFFFFFE01), (0x22, 0x3FFF), (0x23, 0x0000FFFFFFFFFC01),
      (0x24, 0xFFFFFFFFFFFFFFFF), (0x25, 0x1FE), (0x28, 0xFFFFFFFFFFFFFFFC),
      (0x29, 0x80000000000000FF), (0x2A, 0xFFFFFFFFFFFFFFFF), (0x2B, 0xFFFFFFFFFFFFFFFC),
      (0x2C, 0xFFFFFFFFFFFFFFFF), (0x40, 0xFFFFFFFFFFFFFFFC), (0x41, 0x80000000000000FF),
      (0x42, 0xFFFFFFFFFFFFFFFF), (0x43, 0xFFFFFFFFFFFFFFFC), (0x44, 0xFFFFFFFFFFFFFFFF),
      (0x45, 0x7FFFFE)]
    let writes (i : Instr) (new ones : Word) : Prop :=
      ∃ c : CtrlRegs,
        let t := z.onTile fun u => { u with cr := c, member := if n.toNat = 0x0C then
          { u.member with barrier := none } else u.member }
        exec i s = .next (go t) ∧
        (∀ m < 1024, m ≠ n.toNat → m ≠ 0x26 → t.readCr m = z.readCr m) ∧
        (∀ p ∈ plain, p.1 = n.toNat → t.readCr n.toNat = new &&& BitVec.ofNat 64 p.2) ∧
        (n.toNat = 0x01 → t.readCr 0x01 = writeStatus old new s.tile.level) ∧
        (n.toNat = 0x02 → new.toNat % 8 < 5 → t.readCr 0x02 = new &&& 0xF#64) ∧
        (n.toNat = 0x04 → t.readCr 0x04 = if new.toNat % 8 < 5 then new &&& 7#64 else old) ∧
        (n.toNat = 0x0F → t.readCr 0x0F = old &&& ~~~ones) ∧
        (n.toNat = 0x26 → t.tile.cr.ipend = (z.tile.cr.ipend &&& ~~~0x100#64) |||
          (new &&& 0x100#64))
    exec (.crr st d n) s = .next ((z.commitX d old).goTo (z.pc + 4) 0) ∧
    (∀ l, w = some l → l ≤ s.tile.level → n.toNat ≠ 0x20 →
      writes (.crw st a n) v v ∧ writes (.crset st a n) (old ||| v) 0 ∧
      writes (.crclr st a n) (old &&& ~~~v) 0) ∧
    (w = none → exec (.crw st a n) s = .next (go z) ∧ exec (.crset st a n) s = .next (go z) ∧
      exec (.crclr st a n) s = .next (go z)) ∧
    (∀ k, n.toNat = 0x20 → z.nextSegment v = some k → w.getD r ≤ s.tile.level →
      exec (.crw st a n) s = .next ((z.convertSeg z.cur k (v.getLsbD k)).stay 0)) ∧
    (n.toNat = 0x20 → z.nextSegment v = none → s.pins = [] → s.tile.cache = [] →
      s.tile.feWaits = [] → s.poisoned = [] → s.injected = [] → w.getD r ≤ s.tile.level →
      ∃ t : Tile, exec (.crw st a n) s = .next (go (z.onTile fun _ => t)) ∧
        t = { z.tile with
          cr := { z.tile.cr with segmode := (old &&& ~~~0xFF#64) ||| (v &&& 0xFF#64) }
          sram := t.sram, empty := t.empty } ∧
        ∀ o, let same := v.getLsbD (o / 0x10000) = old.getLsbD (o / 0x10000) ∨ 0x80000 ≤ o
          (same → t.sram.read o = z.tile.sram.read o ∧ (o ∈ t.empty ↔ o ∈ z.tile.empty)) ∧
          (¬same → t.sram.read o = 0 ∧ o ∉ t.empty))

/-- 16 R404, R405, R407, 04 R78: an exception of the execute hart is taken at FIRM from FIRM or
where TDELEG does not delegate its cause, and at SYS otherwise. It saves the pc, the cause and
TVAL, moves the level and the interrupt enable of STATUS into the fields that save them, records a
replay that it cuts short, and goes to the handler. Only a DATAERR may roll the hart's compact
back instead (13 R338). ECALL and EBRK take one at every level. -/
def Obligations.ExceptionsSaveAndEnterTheHandler : Prop :=
  (∀ (s : State) (tr : Trap), s.who = .eh → tr.cause ≠ .waits →
    (tr.cause ≠ .dataerr → s.rollsBack tr.cause.code tr.mfinfo = none) ∧
    (∀ num, s.rollsBack tr.cause.code tr.mfinfo = some num → s.raise tr =
      (s.post .rollback { EventArg.none with n₁ := num, tile := s.cur }).stay 0) ∧
    (s.rollsBack tr.cause.code tr.mfinfo = none →
    let t := s.raise tr
    let code := tr.cause.code
    let st := s.tile.cr.status
    let sys := s.tile.level ≠ 2 ∧ s.tile.cr.tdeleg.getLsbD code = true
    t = { s with exc := true, tile := t.tile } ∧ t.tile.frame = none ∧
    (∀ u, u ≠ .eh → u ≠ .vs → t.tile.core u = s.tile.core u) ∧
    t.tile.eh.x = s.tile.eh.x.settle ∧
    t.tile.cr.framepos = (match s.tile.frame with
      | none => s.tile.cr.framepos
      | some f => BitVec.ofNat 64 (2 ^ 63 + f.iter % 256 * 2 ^ 52 + f.at_ % 16 * 2 ^ 48 +
          f.addr.toNat % 2 ^ 48 / 4 * 4)) ∧
    t.tile.cr.mfinfo = tr.mfinfo.getD s.tile.cr.mfinfo ∧
    (sys → t.tile.eh.pc = s.tile.cr.stvec &&& ~~~3#64 ∧
      (∀ k < 64, t.tile.cr.status.getLsbD k = if k = 0 ∨ k = 3 then false else if k = 2 then true
        else if k = 4 then st.getLsbD 2 else if k = 5 then st.getLsbD 3
        else if k = 8 then st.getLsbD 0 else st.getLsbD k) ∧
      t.tile.cr = { s.tile.cr with
        sepc := s.pc &&& ~~~3#64, stcause := BitVec.ofNat 64 code, stval := tr.tval
        status := t.tile.cr.status, framepos := t.tile.cr.framepos, mfinfo := t.tile.cr.mfinfo }) ∧
    (¬sys → t.tile.eh.pc = s.ftvec &&& ~~~3#64 ∧
      (∀ k < 64, t.tile.cr.status.getLsbD k = if k = 1 ∨ k = 2 then false else if k = 3 then true
        else if k = 6 then st.getLsbD 2 else if k = 7 then st.getLsbD 3
        else if k = 9 then st.getLsbD 1 else st.getLsbD k) ∧
      t.tile.cr = { s.tile.cr with
        fepc := s.pc &&& ~~~3#64, ftcause := BitVec.ofNat 64 code, ftval := tr.tval
        status := t.tile.cr.status, framepos := t.tile.cr.framepos, mfinfo := t.tile.cr.mfinfo }))) ∧
  (∀ s : State, s.who = .eh → s.drained = true →
    exec .ecall s = .next (s.settle.raise ⟨.ecall, 0, none⟩) ∧
    exec .ebrk s = .next (s.settle.raise ⟨.ebrk, 0, none⟩))

/-- 16 R401, R404, R405, 08 R201, 11 R290, R291: at a boundary the oldest deferred trap is taken,
or else the lowest interrupt that is pending, enabled and allowed at the level: at SYS with bit 63
of STCAUSE set, or, INBOX with ULI at USER, in the user-level handler on the shadow registers. A
WFI that waits completes before the interrupt (16 R407). What an event acts on, and that a machine
at rest answers at once, are the model's choices (logs 5 and 6). -/
def Obligations.InterruptsAndDeferredTrapsAreTaken : Prop :=
  ∀ (s : State) (c : Nat), (s.getTile s.arg.tile).run = .running →
    (s.focus s.arg.tile).served = false →
    let t := s.getTile s.arg.tile
    let at_ (done : Bool) (f : State → State) : Host.Outcome State Fault Refusal :=
      .next (s.atTile s.arg.tile fun z =>
        let z := { z with who := .eh }
        f (if done = true then z.goTo (z.tile.eh.pc + 4) 0 else z).withdraw)
    let waits := t.eh.begun == some .wfi
    (∀ e rest, t.deferred = e :: rest → exec .deferredTrap s = at_ false fun z =>
      let u := z.onTile fun k => { k with
        deferred := rest
        failed := if rest = [] then [] else k.failed
        queues := vmap (fun q => q.map fun e => { e with faulted := false }) k.queues
        cr := { k.cr with mfinfo := e.mfinfo.getD k.cr.mfinfo } }
      u.enterTrap false e.cause e.tval u.tile.eh.pc (u.tile.trapLevel e.cause)) ∧
    (t.deferred = [] → t.dueInterrupt s.gtc = some c →
      (¬(c = 3 ∧ t.cr.inbctl.getLsbD 1 = true) → exec .interruptEntry s = at_ waits fun z =>
        let u := z.enterTrap true c 0 z.tile.eh.pc 1
        u.onTile fun k => { k with cr := { k.cr with
          ipend := if c = 1 ∨ 5 ≤ c ∧ c ≤ 7 then k.cr.ipend &&& ~~~(1#64 <<< c) else k.cr.ipend } }) ∧
      (c = 3 → t.cr.inbctl.getLsbD 1 = true →
        exec .userInterruptEntry s = at_ waits State.enterUser)) ∧
    (let u := s.enterUser;
      u = { s with exc := true, tile := u.tile } ∧
      u.tile.eh.pc = s.tile.cr.uvec &&& ~~~3#64 ∧ u.tile.eh.x = s.tile.eh.x.settle ∧
      u.tile.cr = { s.tile.cr with
        uepc := s.tile.eh.pc &&& ~~~3#64, inbctl := s.tile.cr.inbctl ||| 0x10#64
        framepos := u.tile.cr.framepos }) ∧
    (∀ k, t.dueInterrupt s.gtc = some k ↔
      1 ≤ k ∧ k ≤ 8 ∧ t.takeable s.gtc k = true ∧ ∀ j < k, 1 ≤ j → t.takeable s.gtc j = false)

/-- 16 R406, R407, R410, 04 R80: ERET returns to the level, the interrupt enable and the pc that
were saved, and resumes the replay that FRAMEPOS records; WFI ends once an enabled interrupt is
pending and waits otherwise; PAUSE only goes on; HALT stops the hart, or the sequencer that
executes it. -/
def Obligations.ReturnWaitPauseAndHalt : Prop :=
  (∀ s : State, s.who = .eh → s.tile.frame = none →
    let z := s.settle
    let st := s.tile.cr.status
    let back (v : Word) (pc : Word) (k : Nat) : State :=
      ({ z.onTile (fun t => { t with cr := { t.cr with status := v } }) with
        fresh := z.fresh + k }).goTo pc 0
    let returns (v : Word) (pc : Word) (k : Nat) : Prop :=
      (s.tile.cr.framepos.getLsbD 63 = false → exec .eret s = .next (back v pc k)) ∧
      (∀ w ws, s.tile.cr.framepos.getLsbD 63 = true → s.injected = [] →
        let fp := s.tile.cr.framepos.toNat
        let a := BitVec.ofNat 64 (fp % 2 ^ 48 / 4 * 4)
        let u : State := { back v pc k with choice := { s.choice with walks := false } }
        u.fetchWord a = .ok w →
        (∃ e n c t x y z, decodeWord w = .ok (.frame e n c t x y z)) →
        u.captureWindow a w = .ok ws → fp / 2 ^ 48 % 16 < ws.length →
        fp / 2 ^ 52 % 256 ≤ w.toNat / 2 ^ 10 % 256 →
        exec .eret s = .next ((back v pc k).onTile fun t => { t with
          cr := { t.cr with framepos := t.cr.framepos &&& 0x7FFFFFFFFFFFFFFF#64 }
          frame := some ⟨a, w, ws, fp / 2 ^ 52 % 256, fp / 2 ^ 48 % 16, t.eh.pos, z.fresh + k⟩ }))
    (s.tile.level = 0 → exec .eret s =
      .next (s.raise ⟨.priv, (s.withStall (encode .eret)).setWidth 64, none⟩)) ∧
    (s.tile.level = 1 → ∃ v, returns v s.tile.cr.sepc 0 ∧
      ∀ k < 64, v.getLsbD k = if k = 0 then st.getLsbD 8 else if k = 8 then false
        else if k = 2 then st.getLsbD 4 else if k = 3 then st.getLsbD 5 else st.getLsbD k) ∧
    (s.tile.level = 2 → st.toNat / 64 % 4 ≠ 3 → ∃ v, returns v s.tile.cr.fepc 1 ∧
      ∀ k < 64, v.getLsbD k = if k = 1 then st.getLsbD 9 else if k = 9 then false
        else if k = 2 then st.getLsbD 6 else if k = 3 then st.getLsbD 7 else st.getLsbD k)) ∧
  (∀ s : State, s.who = .eh → s.drained = true → 1 ≤ s.tile.level →
    let z := s.settle
    let due := z.tile.pending s.gtc &&& s.tile.cr.ienable
    (due ≠ 0 → exec .wfi s = .next (z.goTo (z.pc + 4) 0)) ∧
    (due = 0 → exec .wfi s = .next (z.stayBegun .wfi)) ∧
    ((∀ g ∈ s.gangs, s.cur ∉ g.tiles) →
      exec .halt s = .next ((z.goTo (z.pc + 4) 0).onTile fun t => { t with run := .halted }))) ∧
  (∀ s : State, s.drained = true →
    let z := s.settle
    (s.who = .as → exec .halt s = .next ((z.goTo (z.pc + 4) 0).onTile fun t =>
      { t with acSeq := t.acSeq.stop })) ∧
    (s.who = .ss → exec .halt s = .next ((z.goTo (z.pc + 4) 0).onTile fun t =>
      { t with stSeq := t.stSeq.stop }))) ∧
  (∀ (s : State) (st : StallCode), s.who ≠ .vs → exec (.pause st) s = .next (s.advance st))

/-- 16 R398, R399, R403, 02 R40, R42: a privileged instruction at too low a level traps PRIV with
its word and changes nothing else; so does an access to a control register above the level. An
instruction for the execute hart alone traps ILLOP on a sequencer, with its word; so do a scalar
store on the access sequencer, a scalar load and BQPUSH on the store sequencer, and QLD and QST on
a unit other than their own. -/
def Obligations.PrivilegeAndUnitsAreChecked : Prop :=
  ∀ (s : State) (st : StallCode) (d a b : XReg) (n : BitVec 10) (r : Nat) (w : Option Nat),
    (s.who = .eh → s.drained = true → s.ready [.x a, .x b] [.x d, .x (d + 1), .x (d + 2)] = true →
      let z := s.settle
      let priv (s : State) (w : Word32) : Host.Outcome State Fault Refusal :=
        .next (s.raise ⟨.priv, w.setWidth 64, none⟩)
      let word (i : Instr) : Word32 := (s.ir &&& 0xE0000000#32) ||| (encode i &&& 0x1FFFFFFF#32)
      (s.tile.level = 0 →
        exec .eret s = priv s (word .eret) ∧ exec .wfi s = priv z (word .wfi) ∧
        exec .halt s = priv z (word .halt) ∧
        ((z.readX b).toNat / 16 % 4 ≠ 3 → (z.readX b).toNat % 8 < 5 →
          exec (.tlbinv st a b) s = priv z (encode (.tlbinv st a b))) ∧
        (d.toNat < 30 → exec (.errrd st d a) s = priv s (encode (.errrd st d a))) ∧
        exec (.ctxsave st d a) s = priv z (encode (.ctxsave st d a)) ∧
        exec (.ctxload st a) s = priv z (encode (.ctxload st a)) ∧
        exec (.mboxreg st d a b) s = priv s (encode (.mboxreg st d a b))) ∧
      (s.tile.level < 2 → exec (.pgate st d a) s = priv z (encode (.pgate st d a))) ∧
      (crLevels n.toNat = some (r, w) → s.tile.level < r →
        exec (.crr st d n) s = priv z (encode (.crr st d n))) ∧
      (crLevels n.toNat = some (r, w) → s.tile.level < w.getD r →
        exec (.crw st a n) s = priv z (encode (.crw st a n)) ∧
        exec (.crset st a n) s = priv z (encode (.crset st a n)) ∧
        exec (.crclr st a n) s = priv z (encode (.crclr st a n))) ∧
      (crLevels n.toNat = none →
        exec (.crr st d n) s = .next (z.illop (encode (.crr st d n))) ∧
        exec (.crw st a n) s = .next (z.illop (encode (.crw st a n))))) ∧
    (∀ (m k q : BitVec 3) (u : BitVec 2) (x y z : BitVec 1) (f : BitVec 4)
      (g : BitVec 8) (i₁₂ : BitVec 12) (i₉ : BitVec 9) (i₆ : BitVec 6) (t h : ElemType),
      let word (i : Instr) : Word32 := match i with
        | .fencei | .fencea | .uiret | .cdiss | .sstep | .sxend | .ecall | .ebrk | .eret | .wfi =>
          (s.ir &&& 0xE0000000#32) ||| (encode i &&& 0x1FFFFFFF#32)
        | i => encode i
      let ill (i : Instr) : Prop := exec i s = .next (s.illop (word i))
      let loads : List Instr := [.lb st d a i₁₂, .lh st d a i₁₂, .lw st d a i₁₂, .ld st d a i₁₂,
        .lbu st d a i₁₂, .lhu st d a i₁₂, .lwu st d a i₁₂]
      let stores : List Instr := [.sb st d a i₁₂, .sh st d a i₁₂, .sw st d a i₁₂, .sd st d a i₁₂]
      let onlyEh : List Instr :=
        [.frame st f g m x y z, .qbind st d, .qunbind st d, .qstart st x d a, .qstop st x,
         .ldw st d a i₁₂, .ldwe st d a i₁₂, .stw st d a i₁₂, .stf st d a i₁₂, .ldf st d a i₁₂,
         .vld st d a m i₉, .vst st d a m i₉, .vlds st d a b m u, .vsts st d a b m u,
         .vgath st d a b m u, .vscat st d a b m u, .tld st m d a, .tst st m d a, .cpref st d,
         .cclean st d, .cflush st d, .cinv st d] ++
        [.feget st d a, .feset st d a, .fence st x y m z, .fencem st d a, .amoadd st d a b x u,
         .amoand st d a b x u, .amoor st d a b x u, .amoxor st d a b x u, .amomin st d a b x u,
         .amomax st d a b x u, .amominu st d a b x u, .amomaxu st d a b x u, .amoswap st d a b x u,
         .amofadd st d a b u, .amofmax st d a b u, .amoincs st d a b x u, .amocas st d a b x u,
         .etcall st d a b x i₆, .etinst st d a b, .etdrop st d, .etflush st, .etquery st d a] ++
        [.vadd st d a b m t, .vsub st d a b m t, .vmul st d a b m t, .vmulh st d a b m t,
         .vfma st d a b m t, .vfms st d a b m t, .vfnma st d a b m t, .vdiv st d a b m t,
         .vsqrt st d a m t, .vmin st d a b m t, .vmax st d a b m t, .vabs st d a m t,
         .vneg st d a m t, .vand st d a b m t, .vor st d a b m t, .vxor st d a b m t,
         .vsll st d a b m t, .vsrl st d a b m t, .vsra st d a b m t, .vsadd st d a b m t,
         .vssub st d a b m t, .vcmpeq st m d a k t] ++
        [.vcmplt st m d a k t, .vcmple st m d a k t, .vsel st d a b m t, .vmv st d a m t,
         .vbcast st d a m t, .vmvx st d a b t, .vslideup st d a b m t, .vslidedn st d a b m t,
         .vperm st d a b m t, .vcompress st d a m t, .vexpand st d a m t, .vredsum st d a b m t,
         .vredmax st d a b m t, .vredmin st d a b m t, .vredq st d a m k t, .vdot4 st d a b m t,
         .vexp2 st d a m t, .vlog2 st d a m t, .vrcp st d a m t, .vrsq st d a m t, .mand st m k q,
         .mor st m k q] ++
        [.mxor st m k q, .mnot st m k, .mcnt st d m, .mfirst st d m, .mset st m d, .mget st d m,
         .vcvt st d a t m h, .vcvtn st d a t m h, .vcvtwl st d a t m, .vcvtwh st d a t m,
         .vplane st d a, .vunplane st d a, .vscaleb st d a b t, .vclass st d a t,
         .setshape st d a m, .mgang st d, .mma st u m k, .mmag st u m k d, .mdrain st u m x,
         .mzero st u, .mpsum st d u a x, .mcfg st d] ++
        [.mscale st x m, .tmov st m k, .tmovv st d x m a, .ttrans st m u k, .mstatr st d a,
         .tclr st m, .cpy st d a, .cpyd st d a, .cpyfill st d a, .rrot st d a b, .allred st d a,
         .bcastc st d a, .inbdq st d, .inbpeek st d, .inbcfg st d a, .bcfg st d a, .broot st d a,
         .bdesc st d a, .bexp st d a, .bback st d a, .bpool st d a, .breroot st d a] ++
        [.bstat st d a b, .bdrop st d a, .sxmit st d x n, .ssel st d x n, .csign st d,
         .bardom st d a, .bar st d, .snap st d a, .cstat st d a, .send st d a, .sendv st d a,
         .recv st d a, .recvv st d a, .recvtry st d a, .rld st d a, .rst st d a b, .chopen st d,
         .chclose st d a, .spawn st d a, .taskq st d, .taskend st, .gdone st] ++
        [.mboxreg st d a b, .crr st d n, .crw st d n, .crset st d n, .crclr st d n, .tlbinv st d a,
         .pgate st d a, .ctxsave st d a, .ctxload st d, .errrd st d a, .fencei, .fencea, .uiret,
         .cdiss, .sstep, .sxend, .ecall, .ebrk, .eret, .wfi]
      (s.who = .as ∨ s.who = .ss → ∀ i ∈ onlyEh, ill i) ∧
      (s.who = .as → ∀ i ∈ stores, ill i) ∧ (s.who = .ss → ∀ i ∈ loads, ill i) ∧
      (s.who = .eh ∨ s.who = .ss → ill (.qld st u a i₁₂)) ∧
      (s.who = .eh ∨ s.who = .as → ill (.qst st u a i₁₂)) ∧
      (s.who = .ss → ill (.bqpush st a x)))

/-- 14 R345, R347, R350, R356, 07 R178: SEND, SENDV and FENCEM put a message, or a marker, for the
target's channel at the tail of the injection queue; they wait while 16 entries stand there, and a
target device that is absent or outside the tenant's box traps CHANFAULT. FENCEM is a serializing
instruction (02 R48). What an event acts on, and that a machine at rest answers at once, are the
model's choices (logs 5 and 6). -/
def Obligations.MessagesEnterTheInjectionQueue : Prop :=
  ∀ (s : State) (st : StallCode) (a b : XReg) (v : VReg), s.who = .eh →
    s.ready [.x a, .x b, .x (b + 1), .x (b + 2), .x (b + 3), .v v.toNat] [] = true →
    s.tile.bound v.toNat = false →
    let sends (i : Instr) (s : State) (w : Nat) (target : Word) (ch kind : Nat) (data : Vec)
        (next : Host.Outcome State Fault Refusal) : Prop :=
      let launch := s.launchId (target.setWidth 23)
      let e : InjEntry := {
        msg := ⟨BitVec.ofNat 64 (2 ^ 63 + s.tile.tenant * 2 ^ 48 + kind * 2 ^ 44 +
          s.launchHartid % 2 ^ 23), data⟩
        dest := BitVec.ofNat 64 (ch * 2 ^ 23 + launch % 2 ^ 23)
        marker := kind == 2, id := s.fresh, sent := none, retryAt := none, paired := false
        orphan := false, ctx := s.tile.ctx }
      let put : State := { s with
        fresh := s.fresh + 1
        tile := { s.tile with inj := s.tile.inj ++ [e] }
        agenda := if s.choice.defer then s.agenda else
          .event .msgArrival { EventArg.none with tile := s.cur, n₁ := s.tile.inj.length } ::
            s.agenda }
      let full : Prop := 16 ≤ s.tile.inj.length
      (s.targetFault launch = none → ¬full →
        next = .next ((put.noteSide true).goTo (s.pc + 4) w)) ∧
      (s.targetFault launch = none → full → next = .next (s.stay 0)) ∧
      (∀ code, s.targetFault launch = some code → next =
        .next (s.raise ⟨.chanfault, BitVec.ofNat 64 (code % 128 * 2 ^ 56 + ch * 2 ^ 32 +
          (encode i).toNat), none⟩))
    let run (i : Instr) : Host.Outcome State Fault Refusal := exec i s
    let d := s.readX a
    let z := s.settle
    let c := z.readX b
    sends (.send st a b) s (stallWait st) d (d.toNat / 2 ^ 23 % 8) 0
      (0#256 ++ s.readX (b + 3) ++ s.readX (b + 2) ++ s.readX (b + 1) ++ s.readX b)
      (run (.send st a b)) ∧
    sends (.sendv st a v) s (stallWait st) d (d.toNat / 2 ^ 23 % 8) 1 (s.readV v)
      (run (.sendv st a v)) ∧
    (s.drained = true → sends (.fencem st a b) z 0 (z.readX a) (c.toNat % 8) 2
      (0#384 ++ (c >>> 3) ++ BitVec.ofNat 64 s.launchHartid) (run (.fencem st a b))) ∧
    ∀ launch, (s.targetFault launch = none ↔ launch / 2048 = s.device ∨
      (launch / 2048 < 0xC00 ∧ launch / 2048 ∈ s.peers ∧
        s.outOfBox s.tile.tenant (launch / 2048) = false))

/-- 14 R346, R352, R353, 07 R157, R167: RECV, RECVV and RECVTRY take the oldest message of an open
channel, its header and data into registers, and acquire; on an empty one RECV and RECVV wait and
RECVTRY writes 0. A closed channel traps CHANFAULT. CHOPEN opens a channel, and CHCLOSE closes it,
discards its messages and counts them. -/
def Obligations.ReceivesTakeTheOldestMessage : Prop :=
  ∀ (s : State) (st : StallCode) (d a : XReg) (v : VReg), s.who = .eh →
    s.ready [.x a] [.x d, .x (d + 1), .x (d + 2), .x (d + 3), .x (d + 4), .v v.toNat] = true →
    s.tile.bound v.toNat = false →
    let ch := (s.readX a).toNat % 8
    let c := s.channel ch
    let take (rest : List Msg) : State := (s.setChannel ch { c with entries := rest }).acquire
    let regs (t : State) (m : Msg) : State :=
      if d = 0 then t
      else ((((t.commitX d m.hdr).commitX (d + 1) (m.data.extractLsb' 0 64)).commitX (d + 2)
        (m.data.extractLsb' 64 64)).commitX (d + 3) (m.data.extractLsb' 128 64)).commitX (d + 4)
          (m.data.extractLsb' 192 64)
    let done (t : State) : Host.Outcome State Fault Refusal := .next ((t.noteSide true).advance st)
    (c.isOpen = true →
      (∀ m rest, c.entries = m :: rest →
        exec (.recv st d a) s = done (regs (take rest) m) ∧
        exec (.recvtry st d a) s = done (regs (take rest) m) ∧
        exec (.recvv st v a) s =
          done ((take rest).onTile fun t => t.commitV false v.toNat m.data)) ∧
      (c.entries = [] →
        exec (.recv st d a) s = .next (s.stay 0) ∧ exec (.recvv st v a) s = .next (s.stay 0) ∧
        exec (.recvtry st d a) s = done (s.commitX d 0))) ∧
    (c.isOpen = false →
      let fault (i : Instr) : Prop := exec i s = .next (s.raise
        ⟨.chanfault, BitVec.ofNat 64 (2 ^ 56 + ch * 2 ^ 32 + (encode i).toNat), none⟩)
      fault (.recv st d a) ∧ fault (.recvv st v a) ∧ fault (.recvtry st d a)) ∧
    exec (.chopen st a) s = .next ((s.setChannel ch { c with isOpen := true }).advance st) ∧
    ((∀ r ∈ s.tile.remote, r.chan ≠ ch) → exec (.chclose st d a) s =
      .next (((s.setChannel ch { c with isOpen := false, entries := [] }).commitX d
        (BitVec.ofNat 64 c.entries.length)).advance st)) ∧
    ((∃ r ∈ s.tile.remote, r.chan = ch) → exec (.chclose st d a) s = .next (s.stay 0))

/-- 14 R354, R347, 07 R154, R169: RLD and RST reserve an entry of their channel and leave a
request under way; they wait for an entry, and for the response of an earlier acquire. The home
then reads, or writes, the 64 bytes, and the reply fills the entry with the request's TAG: the
data of an RLD, or zeros. What an event acts on, and that a machine at rest answers at once, are
the model's choices (logs 5 and 6). -/
def Obligations.RemoteRowsAreReadAndWritten : Prop :=
  (∀ (s : State) (st : StallCode) (a b : XReg) (v : VReg) (x : Xlat), s.who = .eh →
    s.ready [.x a, .x b, .v v.toNat] [] = true → s.tile.bound v.toNat = false →
    let ch := (s.readX b).toNat % 8
    let c := s.channel ch
    let issues (i : Instr) (write : Bool) (data : Vec) : Prop :=
      s.check { kind := if write then .store else .load, align := 64, net := true } (s.readX a) =
        .ok x → s.isLocal x.pa = true →
      let r : RemoteReq := {
        id := s.fresh, write := write, va := s.readX a, accs := x.words 64 0 data.toNat, chan := ch
        tag := (s.readX b).toNat / 2 ^ 48, ctx := s.tile.ctx, sent := s.cc, paired := false
        parked := none, arrival := 0 }
      let s' := (s.numbered.onTile fun t => { t with remote := t.remote ++ [r] }).setChannel ch
        { c with reserved := c.reserved + 1 }
      let s' := if s.choice.defer then s'
        else s'.post .rldRstReply { EventArg.none with tile := s.cur, n₁ := s.fresh }
      (c.isOpen = true → c.entries.length + c.reserved < 16 → s.acquiring = false →
        exec i s = .next ((s'.noteSide true).advance st)) ∧
      (c.isOpen = true → 16 ≤ c.entries.length + c.reserved ∨ s.acquiring = true →
        exec i s = .next (s.stay 0)) ∧
      (c.isOpen = false → exec i s = .next (s.raise
        ⟨.chanfault, BitVec.ofNat 64 (2 ^ 56 + ch * 2 ^ 32 + (encode i).toNat), none⟩))
    issues (.rld st a b) false 0 ∧ issues (.rst st v a b) true (s.readV v)) ∧
  (∀ (s : State) (r : RemoteReq) (x : Xlat) (data : Vec),
    (s.onTile fun t => { t with remote := [] }).alone = true → s.arg.tile = s.cur →
      s.arg.n₁ = r.id → s.arg.flag = false → s.tile.remote = [r] → s.tile.reqs = [] →
    r.accs = x.words 64 0 data.toNat → r.parked = none → s.isLocal x.pa = true → x.pa % 64 = 0 →
    let la := localAddr x.pa
    memoryAt la = true → s.uncached (lineOf la) = true → r.chan < 8 →
    let reply (s : State) (kind : Nat) (v : Vec) : State := s.onTile fun t => { t with
      remote := []
      channels := vset t.channels r.chan
        { s.channel r.chan with
          reserved := (s.channel r.chan).reserved - 1
          entries := (s.channel r.chan).entries ++
            [⟨BitVec.ofNat 64 (2 ^ 63 + s.tile.tenant * 2 ^ 48 + kind * 2 ^ 44 +
              r.tag % 2 ^ 16 * 2 ^ 24 + s.launchHartid % 2 ^ 23), v⟩] } }
    (r.write = false →
      exec .rldRstReply s = .next (reply s 3 (BitVec.ofNat 512 (s.readMem la 64)))) ∧
    (r.write = true →
      let w := (List.range 8).foldl (fun s k =>
        s.writeMem r.ctx (la + 8 * k) 8 (data.toNat / 256 ^ (8 * k) % 256 ^ 8)) s
      exec .rldRstReply s = .next (reply w 4 0) ∧
      ((∀ n off, regionOf la = .window n off → windowOf off = 0) → Stored s w la 64 data.toNat)))

/-- 14 R351, R356, R368: a message whose turn it is reaches its target: an open channel with room
takes it, a full one or a hart that is being saved or loaded refuses it for now, and it is sent
again 256 cc later; any other refusal removes it and its sender takes CHANFAULT at its next
boundary. A request for another device ends so by a refusal from there, or when nothing has come
for 2^24 cc. That a hart which is being saved or loaded refuses for now before any other refusal
is looked at is the model's choice (log 40); so are what an event acts on, and that a machine at
rest answers at once (logs 5 and 6). -/
def Obligations.MessagesArriveOrAreRefused : Prop :=
  (∀ (s : State) (e : InjEntry), s.alone = true → s.arg.tile < 2048 → s.arg.flag = false →
    s.arg.n₂ = 0 → let n := s.arg.tile
    (s.getTile n).inj[s.arg.n₁]? = some e → e.target / 2048 = s.device →
    let dropped := s.modTile n (·.dropInj e.id)
    let arrives (i : Instr) : Prop :=
      (∀ m, s.receiver e.target = some m →
        let c := vget (s.getTile m).channels e.chan Channel.closed
        let saves : Prop := (∃ k < 2048, s.tileOfLaunch e.target = some k) ∧
          ∃ g, s.gangOf e.target = some g ∧ g.state = .stopping
        (saves ∨ (s.getTile m).loading = true →
          exec i s = .next (s.modTile n (·.setInj
            { e with sent := some s.cc, retryAt := some (s.cc + 256) }))) ∧
        (¬saves → (s.getTile m).loading = false →
        e.msg.hdr.toNat / 2 ^ 48 % 256 = (s.getTile m).tenant →
        (c.isOpen = true → c.entries.length + c.reserved < 16 →
          exec i s = .next (dropped.modTile m fun t => { t with
            channels := vset t.channels e.chan { c with entries := c.entries ++ [e.msg] } })) ∧
        (c.isOpen = true → 16 ≤ c.entries.length + c.reserved →
          exec i s = .next (s.modTile n (·.setInj
            { e with sent := some s.cc, retryAt := some (s.cc + 256) }))) ∧
        (c.isOpen = false → e.orphan = false →
          exec i s = .next (dropped.deferTo n
            ⟨.chanfault, chanTval true 1 e.chan (BitVec.ofNat 32 e.target), none⟩)))) ∧
      (s.receiver e.target = none → e.orphan = false → exec i s = .next (dropped.deferTo n
        ⟨.chanfault, chanTval true 4 e.chan (BitVec.ofNat 32 e.target), none⟩))
    (e.retryAt = none → e.sent = none → (s.getTile n).mayDepart e = true → arrives .msgArrival) ∧
    (∀ t, e.retryAt = some t → (t ≤ s.cc → arrives .msgRetry) ∧
      (s.cc < t → exec .msgRetry s = .next s))) ∧
  (∀ (s : State), s.compacts = [] → s.arg.tile = s.cur → s.inPort s.arg.n₁ = false →
    let id := s.arg.n₁
    let code := s.arg.n₂
    (∀ e, s.tile.inj.find? (·.id == id) = some e → e.target / 2048 ≠ s.device → e.orphan = false →
      let ended (k : Nat) : State := (s.onTile (·.dropInj id)).deferTo s.cur
        ⟨.chanfault, chanTval true k e.chan (BitVec.ofNat 32 e.target), none⟩
      (code ≠ 0 → exec .refusalArrival s = .next (ended code)) ∧
      (code = 0 → exec .refusalArrival s = .next
        (s.onTile (·.setInj { e with retryAt := some (s.cc + 256) }))) ∧
      (∀ t, e.sent = some t → e.retryAt = none →
        (t + 2 ^ 24 ≤ s.cc → exec .remoteTimeout s = .next (ended 5)) ∧
        (s.cc < t + 2 ^ 24 → exec .remoteTimeout s = .next s))) ∧
    (∀ q, s.tile.inj = [] → s.tile.remote = [] → s.tile.reqs = [q] → q.id = id → q.paired = false →
      s.farDevices q.accs ≠ [] → (∀ k t, q.dest ≠ .queue k t) →
      let ended (k : Nat) : State := s.onTile fun t => { t with
        reqs := [], deferred := t.deferred ++ [q.farError k]
        failed := t.failed ++ [(q.unit, q.dest)] }
      exec .refusalArrival s = .next (ended code) ∧
      (q.sent + 2 ^ 24 ≤ s.cc → exec .remoteTimeout s = .next (ended 5))))

/-- 14 R358, R359, R364 to R367, R369: at an egress the packet that no other goes before leaves:
those whose age is 16 first, the one that arrived earliest first, then by class. A tenant that the
port does not carry is refused, and a packet before a port that is blocked goes another way. A
packet that comes from a link waits for room in the receive buffer of its port, goes to the egress
of its next hop, and leaves the fabric at its target. Ages rise by one each 64 cc. A link retrains
with its traffic held, merges its virtual channels as rows are retired and goes down below 24, and
its audit sets the permits so that with the free slots they make the configured number. What an
event acts on, and that a machine at rest answers at once, are the model's choices (logs 5 and 6).
-/
def Obligations.RoutersAndLinksMoveTraffic : Prop :=
  ∀ (s : State) (p : Nat), s.arg.n₁ = p → p < 8 →
    let P := s.port p
    (∀ k, P.winner = some k → k ∈ P.waiting ∧ ∀ x ∈ P.waiting, P.before x k = false) ∧
    (∀ x y : Packet, x.age < 16 → y.age < 16 → y.cls.rank < x.cls.rank → P.before x y = true) ∧
    (∀ x y : Packet, x.age = 16 → (y.age < 16 ∨ x.arrived < y.arrived) → P.before x y = true) ∧
    (∀ k, P.winner = some k → P.retraining = false → s.arg.flag = false → s.blockedPort p = false →
      let s' := s.setPort p fun x => { x with
        waiting := x.waiting.erase k, last := vset x.last k.cls.rank k.input }
      (P.tenants.getLsbD k.tenant = true → exec .routerArbitrate s = .next (s'.departed k) ∧
        (k.input ≠ ownInput → s'.departed k = s')) ∧
      (P.tenants.getLsbD k.tenant = false → exec .routerArbitrate s =
        .next ((s'.record (portBank p) 6 false false 0 p).refuse k 3))) ∧
    (∀ k, P.winner = some k → P.retraining = false → s.arg.flag = false → s.blockedPort p = true →
      exec .routerArbitrate s = .next ((s.setPort p fun x =>
        { x with
          waiting := x.waiting.erase k, last := vset x.last k.cls.rank k.input }).enqueue k)) ∧
    (∀ (k : Packet) (code : Nat), k.request = true →
      (k.input = ownInput → s.refuse k code = s.post .refusalArrival
        { EventArg.none with tile := k.tile, n₁ := k.req, n₂ := code }) ∧
      (k.input ≠ ownInput → ∀ j x,
        s.route (s.ownPacket .rsp false none 0 0 k.tenant k.source) = .through j x →
        s.refuse k code = s.setPort j fun y => { y with waiting := y.waiting ++ [x] })) ∧
    (∀ k : Packet, k.mid = none → k.target = s.device → s.route k = .here) ∧
    (s.arg.flag = false → P.retraining = true ∨ P.waiting = [] →
      exec .routerArbitrate s = .next s) ∧
    (s.arg.flag = true →
      let k := s.transitPacket s.arg
      let room := P.up && !P.retraining && s.hasRows p k.inVc k.rows
      k.cls = packetClass s.arg.n₂ ∧ k.tenant = s.arg.w₁.toNat % 64 ∧ k.input = p ∧
      k.target = s.arg.w₂.toNat % 4096 ∧
      (room = false ∨ s.route k = .here → exec .routerArbitrate s = .next s) ∧
      (room = true → ∀ j x, s.route k = .through j x → exec .routerArbitrate s =
        .next (s.setPort j fun y => { y with waiting := y.waiting ++ [x] }))) ∧
    (∃ t, exec .routerAgeTick s = .next t ∧ t = { s with ports := t.ports } ∧
      ∀ j < 8, t.port j = { s.port j with waiting := (s.port j).waiting.map fun k =>
        let n := (s.cc - k.waited) / 64
        { k with age := min 16 (k.age + n), waited := k.waited + 64 * n } }) ∧
    (s.arg.flag = true → exec .linkRetrain s =
      .next (s.setPort p fun x => { x with retraining := true })) ∧
    (s.arg.flag = false → s.arg.n₂ = 8 ∨ s.arg.n₂ = 4 ∨ s.arg.n₂ = 2 → exec .linkRetrain s =
      .next (s.setPort p fun x => { x with retraining := false, lanes := s.arg.n₂ })) ∧
    (let rows := P.rows - s.arg.n₂;
      ∃ stage, exec .vcMerge s = .next (s.setPort p fun x => { x with
        rows := rows, stage := stage, up := x.up && decide (24 ≤ rows) }) ∧
      (48 ≤ rows → stage = 0) ∧ (42 ≤ rows → rows < 48 → stage = 1) ∧
      (30 ≤ rows → rows < 42 → stage = 2) ∧ (24 ≤ rows → rows < 30 → stage = 3)) ∧
    (∀ (r : State) (l : Link), r.links = [l] → r.arg.n₁ = l.bank → r.arg.flag = true →
      bankExists l.bank = true → l.bank / 4096 = 3 →
      (r.arg.n₂ + r.arg.n₃ = l.slots → exec .linkAudit r = .next { r with
        links := [{ l with permits := r.arg.n₂, free := r.arg.n₃ }] }) ∧
      (r.arg.n₂ + r.arg.n₃ ≠ l.slots → exec .linkAudit r =
        .next { r.record l.bank 5 false false 0 l.bank with
          links := [{ l with permits := l.slots - r.arg.n₃, free := r.arg.n₃ }] }))

/-- 13 R316 to R320, R331 to R334: a member whose CSIGN is accepted stands as signing with its
range in scratchpad use and its arrival in BARSTAT. Once all have arrived with equal hashes the
compact is committed, here one without LOAD, SNAP and TWIN: its ranges pinned, its members
computing. A signing that runs out of time fails with the lowest missing member. BARDOM defines a
barrier domain of granted tiles, BAR arrives in it, and a barrier instruction whose generation is
over completes with an acquire. Which member a timeout names is the model's choice (log 36), and so
is it that a barrier instruction goes on by an arrival of its own kind only (log 69), what an event
acts on, and that a machine at rest answers at once (logs 5 and 6). -/
def Obligations.CompactsSignAndDomainsSynchronise : Prop :=
  (∀ (s : State) (st : StallCode) (a b : XReg), s.who = .eh → s.drained = true →
    s.ready [.x a, .x b] [] = true → s.tile.tasks.running = none →
    let z := s.settle
    let ended (z : State) : State :=
      (z.onTile fun t => { t with
        cr := { t.cr with barstat := t.cr.barstat &&& 0x7FFFFFFFFFFFFFFF#64 }
        member := { t.member with barrier := none, left := none } }).acquire
    let arrival (dom : Nat) (gen : BitVec 32) : Word :=
      BitVec.ofNat 64 (2 ^ 63 + dom % 64 * 2 ^ 32 + gen.toNat)
    (∀ g, s.tile.member = Member.free → s.tile.cache = [] → (z.readX a).toNat % 128 = 0 →
      s.released = true →
      z.readSigning (z.readX a) = (z, .ok g) → s.pins = [] → s.compacts = [] → s.domains = [] →
      s.tile.grants g.desc.bdom = true → g.desc.snap = false → ∀ pages,
      z.signPages g.entry.back g.entry.segs = .ok pages →
      ∃ t, exec (.csign st a) s = .next t ∧
        t.tile.member = { Member.free with
          phase := .signing, compact := s.nextCompact, index := g.index, twin := g.twin
          barrier := some .csign } ∧
        t.tile.cr.segmode.setWidth 8 = s.tile.cr.segmode.setWidth 8 |||
          rangeMask g.entry.first g.entry.segs ∧
        t.tile.cr.barstat = arrival g.desc.bdom 0 ∧ t.pc = s.pc ∧ t.mem = s.mem ∧
        ∃ c, t.compacts = [c] ∧ c.num = s.nextCompact ∧ c.arrived = [s.cur] ∧ c.signed = false ∧
          c.signing = [⟨s.cur, g.index,
            Config.signHash (g.desc.words ++ g.table ++ g.image)⟩]) ∧
    (∀ c, s.compactOf s.cur = some c → s.tile.member.verdict = none →
      s.tile.stands .csign c.bdom = true → s.tile.arrivalGen ≠ c.gen →
      s.tile.member.phase ≠ .signing →
      exec (.csign st a) s = .next ((ended z).goTo (z.pc + 4) 0)) ∧
    (∀ ws, (s.readX b).toNat % 64 = 0 → s.acquiring = false → s.releasedAt 0 = true →
      s.readWords (s.readX b) 8 = (s, .ok ws) →
      let dom := (s.readX a).toNat % 64
      let die := dieOf s.cur
      let tiles := ((List.range 512).filter fun t =>
        (ws.getD (t / 64) 0).getLsbD (t % 64)).map (· + die * 512)
      s.tile.grants dom = true → (∀ c ∈ s.compacts, c.holdsDomain die dom = false) →
      (∀ d, s.domainOf die dom = some d → d.arrived = []) →
      (∀ t ∈ tiles, ∃ x y, (s.getTile t).place = some x ∧ s.tile.place = some y ∧
        x.lid = y.lid ∧ x.gang = y.gang) →
      exec (.bardom st a b) s = .next ({ s with
        domains := (if tiles = [] then [] else [(⟨die, dom, tiles, 0, []⟩ : Domain)]) ++
          s.domains.filter fun (d : Domain) => !(d.die == die && d.num == dom) }.advance st)) ∧
    (∀ d, let dom := (s.readX a).toNat % 64; let die := dieOf s.cur;
      s.domainOf die dom = some d → (∀ c ∈ s.compacts, c.holdsDomain die dom = false) →
      s.cur ∈ d.tiles →
      (s.tile.stands .bar dom = true → s.tile.arrivalGen ≠ d.gen →
        exec (.bar st a) s = .next ((ended s).advance st)) ∧
      (s.tile.stands .bar dom = true → s.tile.arrivalGen = d.gen →
        exec (.bar st a) s = .next (s.stay 0)) ∧
      (s.tile.stands .bar dom = false → s.released = true → s.choice.defer = true →
        exec (.bar st a) s = .next (({ s with
          domains := s.domains.map (fun (x : Domain) => if x.die = die ∧ x.num = dom then
            { d with arrived := insertNat d.arrived s.cur } else x)
          tile := { s.tile with
            cr := { s.tile.cr with barstat := arrival dom d.gen }
            member := { s.tile.member with barrier := some .bar, left := none } } }).stay 0)))) ∧
  (∀ s : State, exec .barComplete s = .next { s with domains := s.domains.map fun (d : Domain) =>
    if d.die = s.arg.n₁ ∧ d.num = s.arg.n₂ ∧ (∀ t ∈ d.tiles, t ∈ d.arrived) then
      { d with gen := d.gen + 1, arrived := [] } else d }) ∧
  (∀ (s : State) (c : Compact), s.compacts = [c] → c.num = s.arg.n₁ → c.signed = false →
    (∀ len es, s.allArrived c s.arg.flag = true → s.arg.n₂ = 0 →
      (∀ x ∈ c.signing, ∀ y ∈ c.signing, x.hash = y.hash) → s.pins = [] → c.members.length ≤ 4096 →
      c.readSchedule = some (len, es) → c.load = false → c.snap = false →
      (∀ p ∈ s.tiles, p.2.cache = []) →
      (∀ m ∈ c.members, m.twin = false ∧ (s.getTile m.tile).empty = []) →
      exec .compactCommit s = .next { c.members.foldl (fun z m =>
          { z with pins := ⟨c.num, m.tile, m.first, m.pages.map s.pageOf, m.back, c.ctx⟩ ::
              z.pins }.modMember m.tile fun x => { x with
            phase := .compute, count := 0, miss := 0, hatch := [], written := [] }) s with
        compacts := [{ c with
          signed := true, signing := [], arrived := [], gen := c.gen + 1, len := len
          sched := es }] }) ∧
    (∀ k, (s.allArrived c false = false ∨ s.arg.flag = true) → k < c.nmem →
      (∀ x ∈ c.signing, x.index ≠ k) → (∀ j < k, ∃ x ∈ c.signing, x.index = j) →
      (∀ g ∈ s.gangs, g.saved = []) →
      (c.since + (c.tmo + 1) * 2 ^ 16 ≤ s.cc → ∃ t, exec .csignTimeout s = .next t ∧
        t.compacts = [] ∧ t.mem = s.mem ∧ ∀ m ∈ c.members,
          (t.getTile m.tile).member = { Member.free with
            verdict := some ⟨1, k, none⟩, barrier := (s.getTile m.tile).member.barrier }) ∧
      (s.cc < c.since + (c.tmo + 1) * 2 ^ 16 → exec .csignTimeout s = .next s)))

/-- 13 R325 to R330, R335: SSTEP arrives and its member transfers; SXMIT and SSEL add the entries
that the schedule grants, within the member's range, and other uses trap SLOTVIOL. A slot first
reads each 64 bytes that an SXMIT names, and the beat is written at its key slot where an SSEL
names an address; a beat that no SSEL takes counts in MISS. After slot LEN − 1 the members stand
at the barrier, where SXEND arrives, and the superstep barrier returns all of them to COMPUTE. The
end of a transfer is stated where every beat that leaves its die has been driven. That SXEND goes
on by an arrival of its own kind only is the model's choice (log 69); so are what an event acts
on, and that a machine at rest answers at once (logs 5 and 6). -/
def Obligations.SuperstepsTransferBeats : Prop :=
  (∀ (s : State) (st : StallCode) (a : XReg) (h : BitVec 1) (n : BitVec 10) (c : Compact),
    s.who = .eh → s.drained = true → s.ready [.x a] [] = true → s.tile.tasks.running = none →
    s.compactOf s.cur = some c →
    let z := s.settle
    let m := s.tile.member
    let off := (s.readX a).toNat
    let viol (i : Instr) (k : Nat) : Prop := exec i s =
      .next (s.raise ⟨.slotviol, BitVec.ofNat 64 (k * 2 ^ 32 + (encode i).toNat), none⟩)
    let arrived (z : State) : State := { z with compacts := z.compacts.map fun (x : Compact) =>
      if x.num = c.num then { c with arrived := insertNat c.arrived s.cur } else x }
    let enters (i : Instr) (granted : Prop) (e : HatchEntry) : Prop :=
      off % 64 = 0 →
      (m.phase ≠ .transfer → viol i 3) ∧
      (m.phase = .transfer → ¬granted → viol i 1) ∧
      (m.phase = .transfer → granted →
        (∀ k, c.nextSlot (dieOf s.cur) = some k → n.toNat < k → viol i 2) ∧
        ((∀ k, c.nextSlot (dieOf s.cur) = some k → k ≤ n.toNat) →
          (0x80000 ≤ off ∨ s.ownRange off = false → viol i 4) ∧
          (off < 0x80000 → s.ownRange off = true → (m.hatch.filter fun x => !x.done).length < 256 →
            exec i s = .next ((s.onTile fun t => { t with
              member := { t.member with hatch := t.member.hatch ++ [e] } }).advance st))))
    enters (.sxmit st a h n) (∃ e ∈ c.sched, e.src = m.index ∧ e.slot = n.toNat ∧
      e.sh = h.toNat) ⟨true, h.toNat, n.toNat, off, false⟩ ∧
    enters (.ssel st a h n) (∃ e ∈ c.sched, e.dst = m.index ∧ e.dh = h.toNat ∧
      c.keySlot e (s.device * 2048 + s.cur) = n.toNat) ⟨false, h.toNat, n.toNat, off, false⟩ ∧
    (m.phase = .compute → z.rangeBusy = false → s.tile.tasks.ready = [] →
      s.tile.tasks.parked = [] → s.choice.defer = true → s.memberDevices c = [] →
      exec .sstep s = .next (((arrived z).onTile fun t => { t with
        member := { t.member with phase := .transfer, hatch := [] } }).goTo (z.pc + 4) 0)) ∧
    (m.verdict = none → s.tile.stands .sxend c.bdom = true → s.tile.arrivalGen ≠ c.gen →
      exec .sxend s = .next (((z.onTile fun t => { t with
        cr := { t.cr with barstat := t.cr.barstat &&& 0x7FFFFFFFFFFFFFFF#64 }
        member := { t.member with barrier := none, left := none } }).acquire).goTo (z.pc + 4) 0)) ∧
    (m.verdict = none → s.tile.stands .sxend c.bdom = false → m.phase = .barrier →
      z.beatsDone c = true →
      s.released = true → s.choice.defer = true → c.bdom < 64 → s.memberDevices c = [] →
      exec .sxend s = .next (((arrived z).onTile fun t => { t with
        cr := { t.cr with barstat := BitVec.ofNat 64 (2 ^ 63 + c.bdom * 2 ^ 32 + c.gen.toNat) }
        member := { t.member with barrier := some .sxend, left := none } }).stay 0))) ∧
  (∀ (s : State) (c : Compact), s.compacts = [c] → c.num = s.arg.n₁ → c.signed = true →
    let die := s.arg.n₂
    let put (c : Compact) (s : State) : State := { s with compacts := [c] }
    (c.released = [] → s.allArrived c s.arg.flag = true → die ∈ c.dies →
      (∀ m ∈ c.members, (s.getTile m.tile).member.phase = .transfer) →
      exec .transferStart s = .next (put { c with
        arrived := [], gen := c.gen + 1, released := removeNat c.dies die
        slots := putKey c.slots die 0 } s)) ∧
    (∀ ms md e k x y, c.members = [ms, md] → c.twin = false → ms.twin = false → md.twin = false →
      dieOf ms.tile = die → dieOf md.tile = die → ms.tile ≠ md.tile → ms.index = e.src →
      md.index = e.dst → e.src ≠ e.dst → c.sched = [e] → e.sh ≤ 1 → c.nextSlot die = some k →
      k + 1 < c.len → c.hart e.dst = s.device * 2048 + md.tile →
      onDie (c.hart e.src) (c.hart e.dst) = true → s.poisoned = [] → s.injected = [] →
      (s.getTile ms.tile).member.hatch = [x] → (s.getTile md.tile).member.hatch = [y] →
      let key := e.slot + hatchDist (c.hart e.src) (c.hart e.dst)
      (k = e.slot → x = ⟨true, e.sh, k, x.offset, false⟩ → y.send = false →
        exec .hatchSlot s = .next (put { c with
          slots := putKey c.slots die (k + 1)
          beats := c.beats ++ [⟨c.hart e.src, e.sh, k, c.hart e.dst, e.dh,
            BitVec.ofNat 512 (readLE (s.getTile ms.tile).sram.read x.offset 64), false⟩] }
          (s.modMember ms.tile fun u => { u with hatch := [{ x with done := true }] }))) ∧
      (∀ data, k = key → x.done = true → c.beats = [⟨c.hart e.src, e.sh, e.slot, c.hart e.dst,
          e.dh, data, false⟩] →
        let c' := { c with slots := putKey c.slots die (k + 1), beats := [] }
        (y = ⟨false, e.dh, k, y.offset, false⟩ →
          exec .hatchSlot s = .next (put c' (s.modTile md.tile fun t =>
            ({ t with member := { t.member with hatch := [{ y with done := true }] } }).putBlock64
              y.offset data))) ∧
        (y.done = true → exec .hatchSlot s = .next (put c'
          (s.modMember md.tile fun u => { u with miss := u.miss + 1 }))))) ∧
    (∀ e y, s.arg.flag = true → c.sched = [e] → s.arg.n₂ = e.dh → s.arg.n₃ = e.slot →
      let n := s.arg.tile
      let me := s.device * 2048 + n
      c.hart e.dst = me → c.hart e.src / 2048 ≠ s.device → n < 2048 → c.twin = false →
      c.remoteIn = [] → c.beats = [] → (s.getTile n).member.phase = .barrier →
      (s.getTile n).member.hatch = [y] → y = ⟨false, e.dh, e.slot, y.offset, false⟩ →
      s.arg.w₁ = 0 → s.poisoned = [] → s.injected = [] → exec .remoteBeatArrival s = .next (put
        { c with remoteIn := [(me, e.dh, e.slot)] } (s.modTile n fun t =>
          ({ t with member := { t.member with hatch := [{ y with done := true }] } }).putBlock64
            y.offset s.arg.vec))) ∧
    (c.nextSlot die = some c.len → c.pairsReady die (c.len + 3) = true → c.copies = [] →
      (∀ e ∈ c.sched, ∀ m ∈ c.members, m.index = e.src →
        (∀ d ∈ c.receivers e, onDie (c.hart e.src) d = true) ∨
        ∃ x ∈ (s.getTile m.tile).member.hatch, x.send = true ∧ x.port = e.sh ∧ x.slot = e.slot ∧
          x.done = true) →
      exec .transferEnd s = .next (put { c with slots := c.slots.filter fun p => p.1 != die }
        ((c.members.filter fun m => dieOf m.tile == die).foldl (fun s m =>
          s.modMember m.tile fun x =>
            if x.phase = .transfer then { x with phase := .barrier } else x) s))) ∧
    (∀ m rest, c.members = m :: rest → s.allArrived c s.arg.flag = true → c.mismatch = false →
      c.copies = [] → s.dispReads = [] →
      (∀ m ∈ c.members, (s.getTile m.tile).member.phase = .barrier) → c.snap = false →
      (∀ p ∈ s.tiles, p.2.reqs = [] ∧ p.2.remote = [] ∧ p.2.cmds = [] ∧ p.2.feWaits = [] ∧
        p.2.eh.begun = none ∧ p.2.acSeq.copying = none ∧ p.2.stSeq.copying = none) →
      exec .superstepBarrier s = .next (put { c with
          arrived := [], gen := c.gen + 1, remoteIn := [], beats := [] }
        (c.members.foldl (fun z m' => z.modMember m'.tile fun x => { x with
          phase := .compute, count := (s.getTile m.tile).member.count + 1, hatch := [] }) s))))

/-- 13 R336 to R339, R341: CDISS arrives and, once all have, each range becomes owned dirty lines
of its member's tile cache at its backing addresses, its segments turn to cache, and the members
are free. A rollback restores the sectors written since the latest snapshot and the saved context.
CDISS without a compact completes where the compact of its arrival has dissolved, and traps
SLOTVIOL with code 3 otherwise. SNAP asks for a snapshot and reads the count of the latest, and
CSTAT reads the state of the member. That CDISS goes on by an arrival of its own kind only is the
model's choice (log 69), as is what a rollback keeps and restores besides what the rules name (log
38); so are what an event acts on, and that a machine at rest answers at once (logs 5 and 6). -/
def Obligations.CompactsDissolveAndRollBack : Prop :=
  (∀ (s : State) (st : StallCode) (d a : XReg), s.who = .eh → s.tile.tasks.running = none →
    s.ready [.x a] [.x d] = true →
    let m := s.tile.member
    let ended (z : State) : State :=
      (z.onTile fun t => { t with
        cr := { t.cr with barstat := t.cr.barstat &&& 0x7FFFFFFFFFFFFFFF#64 }
        member := { t.member with barrier := none, left := none } }).acquire
    let gives (i : Instr) (want : Bool) (v : Word) : Prop :=
      exec i s = .next (((if want then s.onTile fun t => { t with
        member := { t.member with snapRequested := true } } else s).commitX d v).advance st)
    (s.compactOf s.cur = none →
      gives (.snap st d a) false (BitVec.allOnes 64) ∧ gives (.cstat st d a) false 0 ∧
      (s.drained = true → m.verdict = none →
        (∀ dom, m.left = some dom → s.tile.stands .cdiss dom = true →
          exec .cdiss s = .next ((ended s.settle).goTo (s.pc + 4) 0)) ∧
        ((∀ dom, m.left = some dom → s.tile.stands .cdiss dom = false) →
          exec .cdiss s = .next (s.settle.raise ⟨.slotviol, BitVec.ofNat 64 (3 * 2 ^ 32 +
            (s.withStall (encode .cdiss)).toNat), none⟩)))) ∧
    (∀ c, s.compactOf s.cur = some c →
      let k := (s.readX a).toNat % 16
      let flag (b : Bool) (i : Nat) : Nat := if b then 2 ^ i else 0
      (c.signed = true → c.snap = true →
        gives (.snap st d a) ((s.readX a).getLsbD 0) (BitVec.ofNat 64 c.snapAt)) ∧
      (c.signed = false ∨ c.snap = false → gives (.snap st d a) false (BitVec.allOnes 64)) ∧
      (k = 0 → gives (.cstat st d a) false (BitVec.ofNat 64 (m.phase.code + flag c.snap 3 +
        flag c.twin 4 + flag m.twin 5 + m.index % 2 ^ 20 * 2 ^ 8 + c.bdom % 64 * 2 ^ 28))) ∧
      (k = 1 → gives (.cstat st d a) false (BitVec.ofNat 64 m.count)) ∧
      (k = 2 → gives (.cstat st d a) false (BitVec.ofNat 64 m.miss)) ∧
      (k = 3 → gives (.cstat st d a) false (if c.signed = true ∧ c.snap = true then
        BitVec.ofNat 64 c.snapAt else BitVec.allOnes 64)) ∧
      (k = 4 → gives (.cstat st d a) false (BitVec.ofNat 64 c.rollbacks)) ∧
      (k = 5 → gives (.cstat st d a) false (c.cid.setWidth 64)) ∧
      (6 ≤ k → gives (.cstat st d a) false 0) ∧
      (s.drained = true → m.verdict = none →
        let z := s.settle
        (s.tile.stands .cdiss c.bdom = true → m.phase = .dissolving → s.tile.arrivalGen ≠ c.gen →
          exec .cdiss s = .next ((ended z).goTo (z.pc + 4) 0)) ∧
        (m.phase = .compute → z.rangeBusy = false →
          s.released = true → s.choice.defer = true → c.bdom < 64 → s.memberDevices c = [] →
          let arrived : State := { z with compacts := z.compacts.map fun (x : Compact) =>
            if x.num = c.num then { c with arrived := insertNat c.arrived s.cur } else x }
          let word : Word := BitVec.ofNat 64 (2 ^ 63 + c.bdom * 2 ^ 32 + c.gen.toNat)
          exec .cdiss s = .next ((arrived.onTile fun t => { t with
            member := { t.member with phase := .dissolving, barrier := some .cdiss, left := none }
            cr := { t.cr with barstat := word } }).stay 0))))) ∧
  (∀ (s : State) (c : Compact) (m : CMember), s.compacts = [c] → c.num = s.arg.n₁ →
    c.signed = true → c.members = [m] → m.twin = false → (∀ g ∈ s.gangs, g.saved = []) →
    let t := s.getTile m.tile
    (s.allArrived c s.arg.flag = true → t.member.phase = .dissolving → m.first + m.segs ≤ 8 →
      m.pages.length = m.segs → m.token = 0 → s.dispReads = [] →
      (∀ p ∈ m.pages, s.isLocal p = true ∧ regionOf (localAddr p) = .hbm) →
      (∀ p ∈ s.tiles, p.2.reqs = [] ∧ p.2.remote = [] ∧ p.2.cmds = [] ∧ p.2.feWaits = [] ∧
        p.2.cache = [] ∧ p.2.eh.begun = none ∧ p.2.acSeq.copying = none ∧
        p.2.stSeq.copying = none) →
      ∃ u, exec .compactDissolve s = .next u ∧ u.compacts = [] ∧ u.mem = s.mem ∧
        u.pins = (s.pins.filter fun p => p.compact != c.num) ∧
        let v := u.getTile m.tile
        v.member = { Member.free with
          verdict := t.member.verdict, barrier := t.member.barrier, left := some c.bdom } ∧
        (∀ j < 8, v.cr.segmode.getLsbD j =
          (t.cr.segmode.getLsbD j && !(decide (m.first ≤ j ∧ j < m.first + m.segs)))) ∧
        ∀ i < m.segs, ∀ k < 512, ∃ l ∈ v.cache, l.addr = localAddr (m.pages.getD i 0) + 128 * k ∧
          l.owned = true ∧ l.valid0 = true ∧ l.valid1 = true ∧ l.dirty0 = true ∧ l.dirty1 = true ∧
          l.tag0 = c.ctx ∧ l.tag1 = c.ctx ∧
          ∀ b < 128, l.byte b = t.sram.read ((m.first + i) * 0x10000 + 128 * k + b)) ∧
    (c.snap = true → (∀ p ∈ s.tiles, p.2.feWaits = [] ∧ p.2.cache = []) →
      (∀ p ∈ m.snapPages, s.isLocal p = true ∧ p % 0x10000 = 0 ∧ regionOf (localAddr p) = .hbm) →
      (∀ a ∈ s.areas, a.store ≠ m.tile) →
      m.first + m.segs ≤ 8 → m.segs ≤ m.snapPages.length →
      ∃ u, exec .rollback s = .next u ∧ u.mem = s.mem ∧
        u.compacts = [{ c with
          arrived := [], gen := c.gen + 1, released := []
          slots := [], beats := [], copies := [], remoteIn := [], rollbacksHere := c.rollbacksHere + 1
          rollbacks := c.rollbacks + 1, mismatch := false }] ∧
        let v := u.getTile m.tile
        v.member = { t.member with
          phase := .compute, count := c.snapAt, hatch := [], written := []
          snapRequested := false, barrier := none, left := none } ∧
        (∀ o < 0x80000, let k := o / 0x10000;
          v.sram.read o = if o / 64 ∈ t.member.written ∧ m.first ≤ k ∧ k < m.first + m.segs then
            s.readByte (localAddr (m.snapPages.getD (k - m.first) 0) + o % 0x10000)
          else t.sram.read o) ∧
        (c.rollbacksHere < 2 →
          let w := s.areaWord (m.snapPages.drop m.segs)
          v.eh.pc = (s.getTile m.token).eh.pc ∧ v.cr.status = (s.getTile m.token).cr.status ∧
          ∀ r p, 1 ≤ r → r < 40 → v.eh.x.read r p = w (16 + r)) ∧
        (2 ≤ c.rollbacksHere → v.deferred = t.deferred ++
          [⟨Cause.csignfail.code, 9, none⟩] ∧ v.eh = t.eh)))

/-- 15 R375, R378, R391 to R394, R379: SPAWN reads its record, takes a LID, and returns it, or
minus the code of a refusal; TASKQ appends a task; TASKEND ends the task that runs, counts its
CWORD up, and starts the oldest READY one with an acquire or goes back to TASKRET; GDONE ends the
hart's part; MBOXREG binds a free slot to a line, or removes a binding. That it takes the lowest
free slot is the model's choice (log 46); so are what an event acts on, and that a machine at rest
answers at once (logs 5 and 6). -/
def Obligations.LaunchesTasksAndMailboxes : Prop :=
  ∀ (s : State) (st : StallCode) (d a b : XReg) (ws : List Word), s.who = .eh →
    s.ready [.x a, .x (a + 1), .x (a + 2), .x (a + 3), .x b] [.x d, .x 10] = true →
    let done (t : State) : Host.Outcome State Fault Refusal := .next ((t.noteSide true).advance st)
    let minus (n : Nat) : Word := -(BitVec.ofNat 64 n)
    let prio : Nat := match s.tile.place with
      | some p => ((s.launch p.lid).map (·.prio)).getD 7
      | none => 7
    let next : State := { s with
      nextLid := if s.nextLid = 2 ^ 32 - 1 then 1 else s.nextLid + 1 }
    ((s.readX a).toNat % 128 = 0 → s.acquiring = false → s.released = true → s.dispReads = [] →
      s.readWords (s.readX a) 16 = (s, .ok ws) →
      (∀ c, s.recordCode ws false = some c → exec (.spawn st d a) s =
        done (next.commitX d (minus c))) ∧
      (s.recordCode ws false = none → recDomain ws = false → recKind ws = 1 →
        (s.tile.ctx = 0 ∨ s.killed.contains s.tile.ctx = true → exec (.spawn st d a) s =
          done (next.commitX d (minus 6))) ∧
        (s.tile.ctx ≠ 0 → s.killed.contains s.tile.ctx = false →
          (∀ k ∈ recDies ws, s.poolCount k < 1024) → exec (.spawn st d a) s =
            done (({ next with launches := s.launches ++ [Launch.new s.nextLid s.tile.ctx
              (min (recPrio ws) prio) ws none none none 0 s.gtc] }.kick).commitX d
                (BitVec.ofNat 64 s.nextLid))))) ∧
    ((s.readX a).toNat % 4 = 0 → (s.readX (a + 1)).toNat % 128 = 0 →
      (s.readX (a + 3)).toNat % 8 = 0 →
      let task : Task := ⟨s.fresh, s.readX a, s.readX (a + 1), s.readX (a + 3)⟩
      let gangerr (k : Nat) : Host.Outcome State Fault Refusal := .next (s.raise
        ⟨.gangerr, BitVec.ofNat 64 (k * 2 ^ 32 + (encode (.taskq st a)).toNat), none⟩)
      (s.taskTarget (s.readX (a + 2)) = .here → s.tile.tasks.count < 64 → s.released = true →
        exec (.taskq st a) s = done (s.numbered.onTile (·.enqueue task))) ∧
      (s.taskTarget (s.readX (a + 2)) = .here → 64 ≤ s.tile.tasks.count →
        exec (.taskq st a) s = gangerr 14) ∧
      (∀ n, s.taskTarget (s.readX (a + 2)) = .at n → (s.getTile n).tasks.count < 64 →
        s.released = true → exec (.taskq st a) s = done (s.numbered.modTile n (·.enqueue task))) ∧
      (s.taskTarget (s.readX (a + 2)) = .none → exec (.taskq st a) s = gangerr 13)) ∧
    (let loop (t : State) : Host.Outcome State Fault Refusal := .next (match t.tile.tasks.ready with
        | [] => t.goTo t.tile.cr.taskret (stallWait st)
        | k :: rest => (((t.onTile fun u => { u with
            tasks := { u.tasks with
              ready := rest, running := some k, side := false
              startFlags := u.cr.fpflags, startMstat := u.cr.mstat } }).acquire).commitX 10 k.arg).goTo
                k.routine (stallWait st));
      (s.tile.tasks.running = none → exec (.taskend st) s =
        loop (s.onTile fun t => { t with cr := { t.cr with taskret := s.pc + 4 } })) ∧
      (∀ k, s.tile.tasks.running = some k → s.alone = true →
        let ended (t : State) : State :=
          t.onTile fun u => { u with tasks := { u.tasks with running := none } }
        (k.cword = 0 → exec (.taskend st) s = loop (ended s)) ∧
        (∀ x, k.cword ≠ 0 → s.check { kind := .atomic, align := 8 } k.cword = .ok x →
          s.isLocal x.pa = true → memoryAt (localAddr x.pa) = true →
          s.uncached (lineOf (localAddr x.pa)) = true → exec (.taskend st) s =
            loop (ended (s.numbered.writeMem s.tile.ctx (localAddr x.pa) 8
              ((s.readMem (localAddr x.pa) 8 + 1) % 2 ^ 64)))))) ∧
    (s.tile.tasks.running = none →
      (s.tile.allDone = false → exec (.gdone st) s = .next (s.stay 0)) ∧
      (s.tile.allDone = true →
        let t : State := (s.advance st).onTile fun u => { u with
          run := .halted, inbox := [], tasks := TaskTable.empty
          channels := vmap (fun c => { c with entries := [], isOpen := false }) u.channels }
        (s.tile.place = none → exec (.gdone st) s = .next t) ∧
        (∀ p g, s.tile.place = some p → s.gang p.lid p.gang = some g →
          let g' : Gang := { g with gone := insertNat g.gone s.cur }
          let t' := t.modGang p.lid p.gang fun x => { x with gone := insertNat x.gone s.cur }
          ((∃ n ∈ g.tiles, n ∉ g'.gone) → exec (.gdone st) s = .next t') ∧
          ((∀ n ∈ g.tiles, n ∈ g'.gone) → exec (.gdone st) s = .next (t'.endGang g'))))) ∧
    (∀ n, let t := (s.clearTile n).getTile n;
      t.place = none ∧ t.run = .halted ∧ t.cr.ctxid = 0 ∧ t.cr.status = 8 ∧ t.inbox = [] ∧
      t.tasks = TaskTable.empty) ∧
    (∀ x line, 1 ≤ s.tile.level → (s.readX a).toNat % 128 = 0 → s.acquiring = false →
      s.releasedAt 0 = true →
      s.translate (s.readX a).toNat .store = .ok x → s.mailboxLine x.pa = some line →
      (s.readX b = 0 →
        ((∃ m ∈ s.mailboxes, m.line = line) → exec (.mboxreg st d a b) s =
          .next (({ s with mailboxes := s.mailboxes.filter fun m => m.line != line }.commitX d
            0).advance st)) ∧
        ((∀ m ∈ s.mailboxes, m.line ≠ line) → exec (.mboxreg st d a b) s =
          .next ((s.commitX d (minus 18)).advance st))) ∧
      (s.readX b ≠ 0 → (s.readX b).toNat % 128 = 0 → s.readWords (s.readX b) 16 = (s, .ok ws) →
        (∀ c, s.recordCode ws false = some c → exec (.mboxreg st d a b) s =
          .next ((s.commitX d (minus c)).advance st)) ∧
        (∀ k, s.recordCode ws false = none → recDomain ws = false → recKind ws = 1 →
          s.tile.ctx ≠ 0 → s.killed.contains s.tile.ctx = false →
          (∀ k ∈ recDies ws, s.poolCount k < 1024) → (∀ m ∈ s.mailboxes, m.line ≠ line) →
          1 ≤ k → k ≤ 256 → (∀ m ∈ s.mailboxes, m.slot ≠ k) →
          (∀ j, 1 ≤ j → j < k → ∃ m ∈ s.mailboxes, m.slot = j) →
          exec (.mboxreg st d a b) s = .next (({ s with mailboxes := s.mailboxes ++
            [(⟨k, line, s.tile.ctx, s.tile.level, ws, s.readX a, 0, none⟩ : Mailbox)] }.commitX d
              (BitVec.ofNat 64 k)).advance st))))

/-- 15 R374 to R377, R381 to R387, R391: what the dispatchers do. A triggered line shows PARSING
until its record is launched or refused, and a mailbox launches its own; a gang that comes first
and fits is placed and starts, each hart with its registers, level, context and place; the blocked
head ages, and its target is fixed at AGEMAX; a stalled grid raises GRIDSTALL; and a domain gang
is held, started or released on all its members. That a member forgets the domain gang and its
launch at RELEASE, and remembers a START until its tiles are ready, are the model's choices (log
45), as are what an event acts on, and that a machine at rest answers at once (logs 5 and 6). -/
def Obligations.DispatchersPlaceAndStartGangs : Prop :=
  (∀ (s : State) (l : Launch) (g : Gang) (gs : List (List Nat)), g.tiles = gs.flatten →
    g.tiles.Nodup → gs.length = recGroups l.words → (∀ x ∈ gs, x.length = recSize l.words) →
    ∀ j < gs.length, ∀ k < recSize l.words,
      let n := (gs.getD j []).getD k 0
      let t := (s.startGang l g).getTile n
      t.run = .running ∧ t.eh.pc = recWord l.words 2 ∧ t.level = 0 ∧
      t.cr.ctxid = BitVec.ofNat 64 l.ctx ∧ t.cr.segmode = BitVec.ofNat 64 (recField l.words 0 32 8) ∧
      t.place = some ⟨l.lid, g.idx, j, k, s.device * 2048 + n, g.domains, recJoint l.words⟩ ∧
      ∀ r p, r < 40 → t.eh.x.read r p =
        if r = 10 then recWord l.words 3 else if r = 11 then BitVec.ofNat 64 g.idx
        else if r = 12 then BitVec.ofNat 64 (j * 256 + k) else if r = 13 then g.domains
        else if r = 14 then BitVec.ofNat 64 l.x14 else 0) ∧
  (∀ (s : State) (l : Launch) (die region : Nat) (gs : List (List Nat)) (mask : BitVec 64),
    s.arg.n₁ = die → die < 4 → s.launches = [l] → s.gangs = [] → s.graphs = [] →
    s.heads = Vector.replicate 4 [] →
    l.state = .queued → recKind l.words = 1 → die ∈ recDies l.words → l.started = 0 →
    recBackfill l.words = false → recDomain l.words = false → s.choice.defer = true →
    (s.fits ⟨l, 0, false, false, 0⟩ die (fun _ => true) = none →
      ∃ t, exec .gangPlace s = .next t ∧ t.gangs = [] ∧
        (vget t.heads die []).map (fun h => (h.lid, h.idx, h.age)) = [(l.lid, 0, 0)]) ∧
    (s.fits ⟨l, 0, false, false, 0⟩ die (fun _ => true) = some (region, gs, mask) →
      (∀ n ∈ gs.flatten, (s.getTile n).run = .halted ∧ (s.getTile n).ctx = 0 ∧
        s.poweredTile n = true ∧ (s.getTile n).doorbell.pending = false) →
      let g : Gang := {
        lid := l.lid, idx := 0, state := .holding, die := die, region := region
        tiles := gs.flatten, gone := [], domains := mask, startNs := s.gtc, stamp := s.stamp
        saved := [], stopped := 0, front := false, hold := false, kept := 0, doms := [] }
      ∃ z : State, exec .gangPlace s = .next (z.startGang { l with started := 1 } g) ∧ z.gangs = [g] ∧
        z = { s with
          stamp := s.stamp + 1, placed := z.placed, heads := z.heads, gangs := [g]
          launches := [{ l with started := 1 }] })) ∧
  (∀ s : State,
    let die := s.arg.n₁ % 4
    (∀ h rest w, vget s.heads die [] = h :: rest → s.first die (s.waiting die false) = some w →
      w.launch.lid = h.lid → w.idx = h.idx →
      let n := (s.gtc - h.since) / 100000
      let h' : HeadState := { h with
        age := min 16 (h.age + n), since := h.since + 100000 * n
        fixed := if 16 ≤ h.age + n then some (h.fixed.getD (s.target w die)) else h.fixed }
      exec .headAgeTick s = .next { s with heads := vset s.heads die (h' :: rest) }) ∧
    ((∃ g ∈ s.gangs, g.die = die ∧ ∃ e, s.declaredEnd g = some e ∧ e ≤ s.gtc) →
      exec .runbEndPass s = .next (s.dispatch die).1) ∧
    ((∀ g ∈ s.gangs, g.die ≠ die) → exec .runbEndPass s = .next s) ∧
    (∀ l g n, s.launch s.arg.n₁ = some l → s.gangs = [g] → g.lid = l.lid → g.state = .running →
      g.tiles = [n] → l.started < recGangs l.words → l.stalled = false →
      (s.gtc < l.since + recGridwait l.words → exec .gridStall s = .next s) ∧
      (l.since + recGridwait l.words ≤ s.gtc →
        let t := (s.modTile n fun t => { t with cr := { t.cr with
          ipend := t.cr.ipend ||| 0x80#64 } }).modLaunch l.lid fun l => { l with stalled := true }
        exec .gridStall s = .next (if recRotate l.words = true ∧ recDomain l.words = false then
          t.post .preemptRequest { EventArg.none with n₁ := l.lid, n₂ := g.idx, flag := true }
          else t)))) ∧
  (∀ s : State,
    let lid := s.nextLid
    let next : Nat := if lid = 2 ^ 32 - 1 then 1 else lid + 1
    let kind1 (ws : List Word) (ctx : Nat) : Prop := s.recordCode ws false = none ∧
      recDomain ws = false ∧ recKind ws = 1 ∧ ctx ≠ 0 ∧ s.killed.contains ctx = false ∧
      ∀ k ∈ recDies ws, s.poolCount k < 1024
    let lstat (lid state code : Nat) : Word :=
      BitVec.ofNat 64 (state * 2 ^ 60 + code % 16 * 2 ^ 56 + lid % 2 ^ 32)
    let idle : Prop := (∀ p ∈ s.parsing, p.lid ≠ lid) ∧ ∀ r ∈ s.dispReads, r.lid ≠ lid
    (s.arg.n₁ = 0 → s.arg.n₂ < 4096 → lid < 2 ^ 32 →
      let line := s.arg.n₂
      let ws := (List.range 16).map fun k =>
        BitVec.ofNat 64 (readLE s.mem.read (0x20000000000 + 128 * line + 8 * k) 8)
      let b := lookupD s.bindings line 0
      let ctx := if b.getLsbD 63 then b.toNat % 2 ^ 12 else 0
      let prio := b.toNat / 2 ^ 16 % 8
      (s.choice.defer = true → exec .launchTrigger s = .next { s with
        nextLid := next, lstat := putKey s.lstat line (lstat lid 1 0)
        parsing := s.parsing ++ [⟨lid, ctx, prio, some line, none, ws⟩] }) ∧
      (s.choice.defer = false → idle →
        (∀ c, s.recordCode ws false = some c → exec .launchTrigger s = .next { s with
          nextLid := next, lstat := putKey s.lstat line (lstat lid 5 c) }) ∧
        (kind1 ws ctx → exec .launchTrigger s = .next ({ s with
          nextLid := next, lstat := putKey s.lstat line (lstat lid 2 0)
          launches := s.launches ++ [Launch.new lid ctx (min (recPrio ws) prio) ws
            (some line) none none 0 s.gtc] }.kick)))) ∧
    (∀ p n, s.arg.n₁ = 2 → s.parsing = [p] → p.lid = s.arg.n₂ → p.line = some n →
      p.mailbox = none → (∀ r ∈ s.dispReads, r.lid ≠ p.lid) →
      (s.lineStat n).toNat % 2 ^ 32 = p.lid →
      let ended (state code : Nat) : State := { s with
        parsing := [], lstat := putKey s.lstat n (lstat p.lid state code) }
      (∀ c, s.recordCode p.words false = some c → exec .launchTrigger s = .next (ended 5 c)) ∧
      (kind1 p.words p.ctx → exec .launchTrigger s = .next ({ ended 2 0 with
        launches := s.launches ++ [Launch.new p.lid p.ctx (min (recPrio p.words) p.prio) p.words
          (some n) none none 0 s.gtc] }.kick))) ∧
    (∀ m, s.arg.n₁ = 1 → s.mailboxes = [m] → m.slot = s.arg.n₂ →
      (m.busy.isSome = true → exec .launchTrigger s = .next { s with
        mailboxes := [{ m with owed := min 65535 (m.owed + 1) }] }) ∧
      (m.busy = none → idle →
        let ws := setNth m.words 3 m.va
        (∀ c, s.recordCode ws false = some c → m.owed = 0 →
          exec .launchTrigger s = .next { s with nextLid := next }) ∧
        (kind1 ws m.ctx → s.choice.defer = true → exec .launchTrigger s = .next { s with
          nextLid := next, mailboxes := [{ m with busy := some lid }]
          launches := s.launches ++ [Launch.new lid m.ctx (min (recPrio ws) (recPrio m.words)) ws
            none (some m.slot) none 0 s.gtc] })))) ∧
  (∀ (s : State) (d : DomainGang), s.domainGangs = [d] → d.lid = s.arg.n₁ → d.idx = s.arg.n₂ →
    s.arg.flag = false → d.started = false →
    let put (x : DomainGang) (s : State) : State := { s with domainGangs := [x] }
    let a : EventArg := { EventArg.none with n₁ := d.lid, n₂ := d.idx }
    let dropped : State := { s with
      gangs := s.gangs.filter fun x => !(x.lid == d.lid && x.idx == d.idx)
      launches := s.launches.map fun l => if l.lid = d.lid then
        { l with started := l.started - 1 } else l }
    let told := s.tellMembers d
    exec .domainHold s = .next (put { d with wanted := true, held := [] } told).kick ∧
    (d.coordinator = true → s.arg.n₃ ∈ d.members →
      let d' := { d with held := insertNat d.held s.arg.n₃ }
      exec .domainHeld s = .next (if ∀ m ∈ d.members, m ∈ d'.held then
        (put d' told).post .domainStart a else put d' s)) ∧
    (∀ g l, s.gang d.lid d.idx = some g → s.launch d.lid = some l → g.state = .holding →
      ((d.coordinator = true → ∀ m ∈ d.members, m ∈ d.held) →
        (s.tilesReady g = false → exec .domainStart s = .next (put { d with go := true } s)) ∧
        (s.tilesReady g = true → ¬(d.coordinator = true ∧ d.idx + 1 < recGangs l.words) →
          exec .domainStart s = .next ((put { d with
            started := true, wanted := false, go := false } s).startGang l g))) ∧
      (d.coordinator = true → (∃ m ∈ d.members, m ∉ d.held) → exec .domainStart s = .next s) ∧
      (s.gtc < d.holdSince + 1000000 → exec .domainHoldTimeout s = .next s) ∧
      (d.holdSince + 1000000 ≤ s.gtc → exec .domainHoldTimeout s =
        .next (if d.coordinator then
          dropped.post .domainReleased { a with n₃ := s.device } else dropped)) ∧
      exec .domainRelease s = .next (if d.coordinator then
        (put { d with wanted := false } dropped).clearCounts.post .domainHold a
        else { dropped with
          domainGangs := [], launches := dropped.launches.filter (·.lid != d.lid) }.clearCounts)) ∧
    (d.coordinator = true → exec .domainReleased s = .next
      ((put { d with held := [], wanted := false } told).clearCounts.post .domainRelease a)))

/-- 07 R154, R160, R161, 08 R187, R190, R195, R198, R207, 02 R45, 06 R116 to R118, R142, R146, 04
R86, 09 R231: the steps of the one request `q` of a tile at rest. Its home performs it, a load by
reading, a store by writing, an atomic or a call in one step, passes it on to the tile that holds
its line, or has refused it until it is sent again; its response writes the destination and the
flags, and acquires. A walk leaves its leaf in the TLBs, and ends a pending miss; data fill their
queue entry, an image starts its sequencer, units that wait on one another trap, and VREDQ
consumes message by message. What an event acts on, and that a machine at rest answers at once,
are the model's choices (logs 5 and 6). -/
def Obligations.RequestsArePerformedAndAnswered : Prop :=
  (∀ (s : State) (q : Req),
    { s with tile := { s.tile with reqs := [] } }.alone = true → s.arg.tile = s.cur →
    s.tile.reqs = [q] → s.arg.n₁ = q.id → s.arg.n₂ ≠ 1 → s.arg.flag = false →
    q.answered = false → q.error = none → q.paired = false →
    (∀ a ∈ q.accs, a.done = false ∧ s.isLocal a.pa = true ∧ memoryAt (localAddr a.pa) = true ∧
      s.uncached (lineOf (localAddr a.pa)) = true) →
    let put (q : Req) (s : State) : State := s.onTile fun t => { t with reqs := [q] }
    let end_ (q : Req) (f : Acc → Acc) : Req :=
      { q with accs := q.accs.map fun a => { f a with done := true }, answered := true }
    let loaded := put (end_ q fun a => { a with data := s.readMem (localAddr a.pa) a.size }) s
    let stored := put (end_ q id) (q.accs.foldl
      (fun (s : State) a => s.writeMem q.ctx (localAddr a.pa) a.size a.data) s)
    (q.parked = none → q.stage = .refused → exec .homeRequest s = .next s ∧
      exec .clusterResend s = .next ((s.setReq { q with stage := .sent }).serve q.id)) ∧
    (q.parked = none → q.stage = .sent → s.heldByTile q = true →
      exec .forwardedRequest { s with arg := { s.arg with n₂ := 1 } } =
        .next ({ s with arg := { s.arg with n₂ := 1 } }.setReq { q with stage := .forwarded })) ∧
    (q.parked = none → q.stage ≠ .refused →
      (q.kind = .load → exec .homeRequest s = .next loaded ∧ exec .clusterResend s = .next loaded ∧
        (s.heldByTile q = true → exec .forwardedRequest s = .next loaded)) ∧
      (q.kind = .store → (∀ a ∈ q.accs, a.pvt = false ∨ a.mt = true) →
        exec .homeRequest s = .next stored ∧ exec .clusterResend s = .next stored ∧
        (s.heldByTile q = true → exec .forwardedRequest s = .next stored)) ∧
      (∀ a, q.accs = [a] →
        let la := localAddr a.pa
        let old := s.readMem la a.size
        let took (new : Option Nat) (fl : FpFlags) : State :=
          put { end_ q id with
            result := [BitVec.ofInt 64 (signedAt a.size old)], flags := fl }
            (match new with
             | some v => s.writeMem q.ctx la a.size v
             | none => s)
        (∀ op, q.kind = .amo op → exec .amoAtHome s = .next (took
          (some (amoOp op a.size q.mode old a.data).1) (amoOp op a.size q.mode old a.data).2)) ∧
        (∀ e, q.kind = .cas e → exec .amoAtHome s =
          .next (took (if old = e then some a.data else none) 0))) ∧
      (∀ rid ops base image, q.kind = .etch rid ops base → s.imageOf q rid = some image →
        exec .etchCallExec s =
          .next ((s.runCall q image ops).1.setReq (s.runCall q image ops).2))) ∧
    (q.parked = some .routineMiss → ∀ rid ops base image, q.kind = .etch rid ops base →
      q.stage = .sent → s.fetchRoutine s.cur q rid base = (s, .ok image) →
      let z := (s.cacheImage image).setReq { q with parked := none }
      exec .routineFetchDone s = .next ((z.runCall { q with parked := none } image ops).1.setReq
        (z.runCall { q with parked := none } image ops).2)) ∧
    (q.parked = some .retry → q.stage = .sent → exec .parkedReplay s =
      .next (((s.setReq { q with parked := none }).serve q.id).respond q.id))) ∧
  (∀ (s : State) (q : Req), s.arg.tile = s.cur → s.compacts = [] → s.tile.reqs = [q] →
    s.arg.n₁ = q.id → q.answered = true → q.error = none → q.paired = false →
    let rest : State := s.onTile fun t => { t with reqs := [] }
    let commit (t : State) (r : Nat) (v : Word) : State := t.onTile fun u =>
      u.setCore q.unit { u.core q.unit with x := (u.core q.unit).x.commit r v }
    (∀ r size signed a, q.kind = .load → q.flags = 0 → q.acquire = none → q.accs = [a] →
      q.dest = .x r size signed → a.off = 0 → size ≤ 8 → a.data < 256 ^ size →
      exec .loadResponse s = .next (commit rest r (if signed then
        BitVec.ofInt 64 (signedAt size a.data) else BitVec.ofNat 64 a.data))) ∧
    (q.kind = .store → q.flags = 0 → q.acquire = none → exec .writeAck s = .next rest) ∧
    (∀ r n b v, (∃ k, q.kind = .amo k ∨ q.kind = .cas k) → q.dest = .x r n b → q.result = [v] →
      let t := (commit rest r v).orFlags q.flags
      (q.acquire = none ∨ q.acquire = some 0 → exec .amoResponse s = .next t) ∧
      (∀ k, q.acquire = some (k + 1) → exec .amoResponse s = .next t.acquire)) ∧
    (∀ rid ops base r₁ r₂ v w, q.kind = .etch rid ops base → q.dest = .x2 r₁ r₂ →
      q.result = [v, w] → q.acquire = none →
      exec .amoResponse s = .next ((commit (commit rest r₁ v) r₂ w).orFlags q.flags)) ∧
    (∀ k ticket, q.kind = .load → q.flags = 0 → q.acquire = none → q.dest = .queue k ticket →
      exec .qldDataArrival s = .next (rest.onTile fun t => { t with
        queues := vset t.queues k ((vget t.queues k []).map fun e => if e.ticket = ticket then
          { e with data := overlay e.data q.accs, arrived := true } else e) }))) ∧
  (∀ s : State, s.arg.tile = s.cur →
    let va := s.arg.w₁.toNat
    let root := s.tile.cr.trbase.toNat / 2 ^ 9 % 2 ^ 47 * 512
    (∀ m, s.misses = [m] → m.covers (dieOf s.cur) s.tile.ctx (va / 2 ^ 16) = true →
      m.tiles = [s.cur] → s.arg.flag = false → s.injected = [] →
      let at_ := m.page * 2 ^ 16
      s.walkWaits m.root at_ = false →
      ∀ leaf big, s.walk (m.root.toNat / 2 ^ 9 % 2 ^ 47 * 512) at_ = .ok (leaf, big) →
        ∃ t, exec .pageWalk s = .next t ∧ t.misses = [] ∧
          ⟨m.ctx, at_ / (if big then 2 ^ 29 else 2 ^ 16), big, leaf⟩ ∈ t.tile.tlb) ∧
    (s.tile.cr.trbase.getLsbD 0 = true → va < 2 ^ 48 → s.injected = [] →
      s.walkWaits s.tile.cr.trbase va = false →
      (∀ m ∈ s.misses, m.covers (dieOf s.cur) s.tile.ctx (va / 2 ^ 16) = false) →
      (∀ leaf big, s.walk root va = .ok (leaf, big) → ∃ t, exec .pageWalk s = .next t ∧
        t = { s with tile := { s.tile with tlb := t.tile.tlb }, clusterTlb := t.clusterTlb } ∧
        let e : TlbEntry := ⟨s.tile.ctx, va / (if big then 2 ^ 29 else 2 ^ 16), big, leaf⟩
        e ∈ t.tile.tlb ∧ t.tile.tlb.length ≤ 48 ∧ (clusterOf s.cur, e) ∈ t.clusterTlb) ∧
      (∀ e, s.walk root va = .error e → exec .pageWalk s = .next s)) ∧
    (∀ c, s.tile.stuckSince = some c → s.tile.stuck = true →
      (c + 4096 ≤ s.cc → exec .qdeadlk s = .next (s.withdraw.enterTrap false 0x0F
        (BitVec.ofNat 64 (s.tile.eh.wait + 16 * s.tile.acSeq.core.wait +
          256 * s.tile.stSeq.core.wait)) s.tile.eh.pc (s.tile.trapLevel 0x0F))) ∧
      (s.cc < c + 4096 → exec .qdeadlk s = .next s)) ∧
    (∀ w st d a c m t, s.who = .eh → s.tile.run = .running → s.tile.deferred = [] →
      s.tile.dueInterrupt s.gtc = none → s.fetchWord s.tile.eh.pc = .ok w →
      decodeWord w = .ok (.vredq st d a c m t) →
      ∃ u, exec (.vredq st d a c m t) s = .next u ∧
        exec .vredqPass s = .next { u with who := .eh }) ∧
    (∀ c, s.alone = true → s.arg.n₁ ≤ 1 →
      let u : UnitId := if s.arg.n₁ = 0 then .as else .ss
      (s.tile.seq u).copying = some c → c.served = [] →
      (∀ p ∈ c.lines, s.isLocal p = true ∧ p % 128 = 0 ∧ s.uncached (localAddr p) = true) →
      c.len ≤ 128 * c.lines.length →
      ∃ q : Sequencer, exec .qstartCopyDone s = .next (s.onTile fun t => t.setSeq u q) ∧
        q = { s.tile.seq u with
          copying := none, running := true, store := q.store
          core := { (s.tile.seq u).core with pc := 0, wait := 0 } } ∧
        ∀ k < c.len, q.store.read k =
          s.readByte (localAddr (c.lines.getD (k / 128) 0) + k % 128)))

/-- 16 R409, R414 to R419, R425: TLBINV drops the entries that its mode selects from the TLBs of
its scope, once no tile of its region waits for a walk; ERRRD reads the record of a bank, zeros
where there is none; CTXSAVE saves the hart and its segments to the pages of an area and answers
the area's size; CTXLOAD loads an area of the hart, and traps LOADFAULT with BADSAVE where the
area is not one. That MODE 0 drops a global entry of another context is the model's choice (log
27), as are the words of the implementation-defined blocks of an area (log 16), and that CTXLOAD
translates its address as CTXSAVE does (log 70). With the model's choice `defer` (log 6) a CTXSAVE
and a CTXLOAD first take a turn that an interrupt may follow: the CTXLOAD has then overwritten
what R419 names. -/
def Obligations.TlbErrorBankAndSaveAreaInstructions : Prop :=
  ∀ (s : State) (st : StallCode) (d a b : XReg), s.who = .eh → 1 ≤ s.tile.level →
    s.ready [.x a, .x b] [.x d, .x (d + 1), .x (d + 2)] = true →
    let done (t : State) : Host.Outcome State Fault Refusal := .next (t.goTo (t.pc + 4) 0)
    (d.toNat < 30 →
      let id := (s.readX a).toNat % 2 ^ 16
      let r : BankRecord := if bankExists id then s.bank id else ⟨id, 0, 0, 0⟩
      exec (.errrd st d a) s = .next ((((s.commitX d r.w0).commitX (d + 1) r.w1).commitX (d + 2)
        r.w2).advance st)) ∧
    (s.drained = true →
      let z := s.settle
      (let v := (z.readX b).toNat
       let mode := v / 16 % 4
       let scope := v % 8
       let ctx := if s.tile.level = 2 then v / 2 ^ 16 % 2 ^ 12 else s.tile.ctx
       let gone (e : TlbEntry) : Bool :=
         mode == 2 || (mode == 1 && e.ctx == ctx && !e.leaf.getLsbD 7) ||
           (mode == 0 && e.hit ctx (z.readX a).toNat)
       let near (n : Nat) : Bool :=
         n == s.cur || scope ≥ 3 || (scope == 2 && n / 512 == s.cur / 512) ||
           (scope == 1 && n / 32 == s.cur / 32)
       let walks : Prop := ∃ m ∈ s.misses, ∃ n ∈ m.tiles, near n = true
       mode < 3 → scope < 5 → (mode = 2 → s.tile.level = 2) →
       (walks → exec (.tlbinv st a b) s = .next (z.stay 0)) ∧
       (¬walks → ∃ t, exec (.tlbinv st a b) s = done t ∧
         t = { z with
           tile := { z.tile with tlb := z.tile.tlb.filter (!gone ·) }
           others := t.others
           clusterTlb := z.clusterTlb.filter fun p =>
             !((scope ≥ 3 || (scope == 2 && p.1 / 16 == s.cur / 512) ||
               (scope < 2 && p.1 == s.cur / 32)) && gone p.2) } ∧
         ∀ n, n ≠ s.cur → t.getTile n = if scope ≥ 3 ∨ (scope = 2 ∧ n / 512 = s.cur / 512) ∨
             (scope = 1 ∧ n / 32 = s.cur / 32)
           then { s.getTile n with tlb := (s.getTile n).tlb.filter (!gone ·) } else s.getTile n)) ∧
      (z.saveWaits = false → (z.readX a).toNat % 0x10000 = 0 →
        (∀ pages, s.tile.member.phase = .free →
          z.areaPages .store (z.readX a) (s.tile.areaSize / 0x10000) = .ok pages →
          let hdr : List Word := [0x0001000053443438#64, z.tile.cr.sepc,
            BitVec.ofNat 64 (s.tile.cr.status.toNat / 16 % 4 + 256 * (s.tile.cr.segmode.toNat % 256) +
              65536 * s.tile.acSeq.running.toNat + 131072 * s.tile.stSeq.running.toNat),
            BitVec.ofNat 64 s.launchHartid, s.tile.cr.ctxid, BitVec.ofNat 64 s.gtc,
            BitVec.ofNat 64 s.tile.areaSize]
          (z.areaHeld pages true = true → exec (.ctxsave st d a) s = .next (z.stay 0)) ∧
          (z.areaHeld pages true = false → s.choice.defer = false ∨ s.core.begun.isSome = true →
            exec (.ctxsave st d a) s = done (((z.saveHart s.cur s.freshStore pages hdr).modTile
              s.freshStore fun t => { t with place := none }).commitX d
                (BitVec.ofNat 64 (0x40000 + 0x10000 * s.tile.segments.length)))) ∧
          (z.areaHeld pages true = false → s.choice.defer = true → s.core.begun = none →
            exec (.ctxsave st d a) s = .next (z.stayBegun (.save pages)))) ∧
        (∀ head, z.areaPages .load (z.readX a) 4 = .ok head → ∀ pages,
          let size := min 0xC0000 (max 0x40000 (z.areaWord head 6).toNat)
          z.areaPages .load (z.readX a) (size / 0x10000) = .ok pages →
          (z.areaHeld pages false = true → exec (.ctxload st a) s = .next (z.stay 0)) ∧
          (z.areaHeld pages false = false →
            (z.badArea pages = true → exec (.ctxload st a) s =
              .next (z.raise ⟨.loadfault, z.readX a, some (mfinfoOf 0 0 0 reasonBADSAVE)⟩)) ∧
            (z.badArea pages = false →
              let y := z.detectArea pages
              (∀ k, y.areaLost pages size = some k → exec (.ctxload st a) s =
                .next (y.raise ⟨.dataerr, z.readX a + BitVec.ofNat 64 (64 * k),
                  some (mfinfoOf 0 0 0 reasonUE)⟩)) ∧
              (y.areaLost pages size = none → y.tile.member.phase = .free →
                y.areaInj pages + (y.tile.inj.filter (·.orphan)).length ≤ 16 →
                (y.choice.defer = true → y.core.begun = none →
                  exec (.ctxload st a) s = .next ((y.loadFirst pages).stayBegun .load)) ∧
                (y.choice.defer = false ∨ y.core.begun.isSome = true → exec (.ctxload st a) s =
                  done ((y.loadHart y.cur pages y.tile.level y.tile.ctx y.launchHartid).onTile
                    fun t => { t with cr := { t.cr with
                      sepc := y.areaWord pages 1 &&& ~~~3#64
                      status := setSlice t.cr.status 4 2
                        (slice (y.areaWord pages 2) 0 2) } }))))))))

/-- 16 R408, R420 to R422: PGATE at FIRM answers 2 where the tile holds work; otherwise it waits
for its COMMIT, and a wake before that ends it with 1. The COMMIT gates the tile, which keeps its
segments where it was told to; a wake is latched while the tile prepares or is gated, and a gated
tile then starts at its FTVEC at FIRM, with the pc behind its PGATE and what it kept. What counts
as work beyond the words of R421 is the model's choice (log 48), as are what an event acts on, and
that a machine at rest answers at once (logs 5 and 6). -/
def Obligations.PowerGatingAndWakes : Prop :=
  (∀ (s : State) (st : StallCode) (d a : XReg), s.who = .eh → s.tile.level = 2 → s.drained = true →
    s.ready [.x a] [.x d] = true →
    let z := s.settle
    let done (t : State) : Host.Outcome State Fault Refusal := .next (t.goTo (t.pc + 4) 0)
    let bell := s.tile.doorbell
    (bell.pending = true → bell.rung = true → exec (.pgate st d a) s =
      done ((z.onTile fun t =>
        { t with doorbell := { bell with rung := false, pending := false } }).commitX
        d 1)) ∧
    (bell.pending = true → bell.rung = false → exec (.pgate st d a) s = .next (z.stay 0)) ∧
    (bell.pending = false → s.gateBusy = true → exec (.pgate st d a) s = done (z.commitX d 2)) ∧
    (bell.pending = false → s.gateBusy = false →
      (∀ l ∈ s.tile.cache, l.dirty0 = false ∧ l.dirty1 = false) →
      let p := (z.onTile fun t => { t with doorbell :=
        ⟨t.cr.ftvec, z.pc, (z.readX a).getLsbD 0, false, true⟩ }).stay 0
      exec (.pgate st d a) s = .next (if s.choice.defer then p
        else p.post .pgateCommit { EventArg.none with tile := s.cur }))) ∧
  (∀ s : State,
    let n := s.arg.tile
    let t := s.getTile n
    (t.doorbell.pending = false ∨ t.doorbell.rung = true → exec .pgateCommit s = .next s) ∧
    (t.doorbell.pending = true → t.doorbell.rung = false →
      ∃ u, exec .pgateCommit s = .next u ∧ (u.getTile n).run = .gated ∧
        (u.getTile n).doorbell = { t.doorbell with pending := false } ∧ (u.getTile n).cache = [] ∧
        (u.getTile n).eh = (Tile.reset n).eh ∧ (u.getTile n).v = (Tile.reset n).v ∧
        (t.doorbell.retain = true → t.cache = [] →
          u = s.modTile n (fun _ => u.getTile n) ∧
          (u.getTile n).sram = t.sram ∧ (u.getTile n).empty = t.empty ∧
          (u.getTile n).cr = { CtrlRegs.reset with segmode := t.cr.segmode }) ∧
        (t.doorbell.retain = false →
          (u.getTile n).sram = [] ∧ (u.getTile n).empty = [] ∧ (u.getTile n).cr = CtrlRegs.reset)) ∧
    (¬(t.run = .gated ∨ t.doorbell.pending = true) → exec .doorbell s = .next s) ∧
    (let u := s.modTile n fun t => { t with doorbell := { t.doorbell with rung := true } };
      (t.run ≠ .gated → t.doorbell.pending = true → exec .doorbell s = .next u) ∧
      (t.run = .gated → exec .doorbell s = .next (if s.choice.defer then u
        else u.post .tilePowerUp { EventArg.none with tile := n }))) ∧
    (n = s.cur → s.tile.run = .gated → t.doorbell.rung = true →
      let v := (match t.doorbell.ftvec with
        | some v => v
        | none => vget s.resetvec (n / 512) 0 &&& ~~~3#64)
      exec .tilePowerUp s = .next (s.onTile fun t => { t with
        run := .running
        doorbell := { t.doorbell with rung := false }
        eh := { t.eh with pc := v &&& ~~~3#64 }
        cr := { t.cr with
          ftvec := t.doorbell.ftvec, ftcause := 0x8000000000000004#64
          fepc := t.doorbell.pgate + 4, ftval := if t.doorbell.retain then 1 else 0 } })))

/-- 16 R410, R457, 01 R30, 06 R113, R114, 16 R402, R411, R424, R427, 17 R439, 18 R447, R448: the
release of a halted hart, the reset of the device (what it keeps is the model's choice, log 22),
the steps that a write of a register starts, and the kill of a context on a device at rest, of
which no message stands in an injection queue any more. The way that SUB of a record names and
those that lose their dirty lines (log 20), what of a killed hart stays on its tile (log 49), what
an event acts on, and that a machine at rest answers at once (logs 5 and 6), are the model's
choices. -/
def Obligations.ReleaseResetRegisterWritesAndKill : Prop :=
  (∀ s : State, s.arg.tile = s.cur →
    (s.tile.run = .halted → vget s.mgmt.powered (s.cur / 512) false = true →
      exec .hartRelease s = .next (s.onTile fun t => { t with
        run := .running
        eh := { t.eh with pc := s.ftvec &&& ~~~3#64, wait := 0 }
        cr := { t.cr with
          ftcause := 0, fepc := t.eh.pc &&& ~~~3#64
          status := (t.cr.status &&& ~~~12#64) ||| 8#64 } })) ∧
    (s.tile.run ≠ .halted → exec .hartRelease s = .next s)) ∧
  (∀ s : State, (s.others.map (·.1)).Nodup →
    let after (i : Instr) (on : Bool) : Prop := ∃ t, exec i s = .next t ∧
      (∀ n < 2048, t.getTile n = { Tile.reset n with
        placeable := (s.getTile n).placeable, physical := (s.getTile n).physical }) ∧
      let kept : State := { State.reset with
        tile := t.tile, others := t.others, agenda := s.agenda, choice := s.choice, fresh := s.fresh
        cc := s.cc, mem := s.mem, injected := s.injected, poisoned := s.poisoned
        service := s.service, boxes := s.boxes, mgmt := { s.mgmt with up := false } }
      t = if on then kept else { kept with
        gtc := s.gtc, device := s.device, peers := s.peers
        banks := s.banks.filter fun b => b.bank / 4096 == 6
        hostBias := s.hostBias, snoop := s.snoop, snoopClean := s.snoopClean, flips := s.flips
        biascmd := s.biascmd, biasErr := s.biasErr, biasDone := s.biasDone, msix := s.msix
        hostData := s.hostData, hostError := s.hostError, cores := s.cores
        reservations := s.reservations, appRegs := s.appRegs, appCache := s.appCache
        mgmt := { s.mgmt with
          up := false, powered := Vector.replicate 4 false
          throttled := Vector.replicate 4 false } }
    after .deviceReset true ∧ after .thermalShutdown false) ∧
  (∀ s : State,
    let n := s.arg.n₁
    exec .timerExpiry s = .next { s with
      gtc := max s.gtc (s.getTile s.arg.tile).cr.timecmp.toNat, cc := s.cc + n } ∧
    (∃ v, exec .resetvec s = .next { s with resetvec := v } ∧
      ∀ k < 4, vget v k 0 = if k = n then s.arg.w₁ else vget s.resetvec k 0) ∧
    (∃ b, exec .errclr s = .next { s with banks := b } ∧ ∀ k,
      ({ s with banks := b } : State).bank k = if k = n then ⟨n, 0, 0, 0⟩ else s.bank k) ∧
    (∃ m, exec .slicemapWrite s = .next { s with slicemap := m } ∧ ∀ d < 4, ∀ k < 64,
      vget (vget m d (Vector.replicate 64 0)) k 0 = if d = n ∧ k = s.arg.n₂ then
        s.arg.w₁.setWidth 6 else vget (vget s.slicemap d (Vector.replicate 64 0)) k 0) ∧
    (regionOf n = .hbm → exec .errinjInject s = .next { s with
      injected := (n / 64, s.arg.flag) :: s.injected.filter fun p => p.1 != n / 64 }) ∧
    (regionOf n ≠ .hbm → exec .errinjInject s = .next s) ∧
    ((∀ p ∈ s.injected, p.1 / 2 ≠ n / 128) → exec .errinjScrub s = .next s) ∧
    (∀ k ue, s.injected = [(k, ue)] → k / 2 = n / 128 → regionOf (64 * k) = .hbm →
      ∃ t, exec .errinjScrub s = .next t ∧
      t.injected = [] ∧ t.mem = s.mem ∧
      (ue = false → t = ({ s with injected := [] } : State).record (s.homeBank (64 * k)) 1 false
        false (s.wayOf (64 * k)) (s.device * 2 ^ 44 + 128 * (k / 2))) ∧
      (ue = true → ∀ c, s.tagOf k = some c →
        (k, c) ∈ t.poisoned ∧ k / 1024 ∈ t.service.retired ∧
        let cleans : List Move := (s.wayMates k).map Move.clean
        (c ∈ s.killed → t.agenda = cleans ++ s.agenda) ∧
        (c ∉ s.killed → ∃ a, t.agenda = .event .ctxkill a :: (cleans ++ s.agenda) ∧ a.n₁ = c)))) ∧
  (∀ (s : State) (k : Nat), k < 8 → s.arg.n₂ = 2 ^ k →
    let la := s.arg.n₁ / 64 * 64 + 8 * k
    let v := slice s.arg.vec (64 * k) 64
    let writes (t : State) : Prop := exec .regSpaceWrite s = .next t
    (∀ off, regionOf la = .launch off →
      let u := { s with mem := writeLE (fun (m : Memory) a b => m.write a b) s.mem la v.toNat 8 }
      writes (if off % 128 = 120 then
        u.post .launchTrigger { EventArg.none with n₂ := off / 128 } else u)) ∧
    (∀ off, regionOf la = .appRegs off →
      writes { s with appRegs := putKey s.appRegs (off / 8) v }) ∧
    (∀ off, regionOf la = .regs off →
      (∀ l, regName off = some (.binding l) →
        writes { s with bindings := putKey s.bindings l (v &&& 0x8000000000070FFF#64) }) ∧
      (∀ id w, regName off = some (.bank id w) →
        writes (if w = 3 then s.post .errclr { EventArg.none with n₁ := id } else s)) ∧
      (∀ d i, regName off = some (.slicemap d i) →
        writes (s.post .slicemapWrite { EventArg.none with n₁ := d, n₂ := i, w₁ := v })) ∧
      (regName off = some .ctxkill → writes (if v.toNat % 4096 = 0 then s
        else s.post .ctxkill { EventArg.none with n₁ := v.toNat % 4096 })) ∧
      (∀ d, regName off = some (.resetvec d) →
        writes (s.post .resetvec { EventArg.none with n₁ := d, w₁ := v })) ∧
      (regName off = some .preq →
        (v &&& 0xFFFFFFF8FC800000#64 ≠ 0 → writes s) ∧
        (v &&& 0xFFFFFFF8FC800000#64 = 0 →
          let u := { s with preq := v &&& 0x7FFFFF#64 }
          let a := { EventArg.none with n₁ := v.toNat % 2 ^ 23 }
          writes (if v.toNat / 2 ^ 24 % 4 = 1 then u.post .preqPreemptHold a
            else if v.toNat / 2 ^ 24 % 4 = 2 then u.post .preqRelease a else u))) ∧
      (regName off = some .errinj →
        let pa := v.toNat / 64 % 2 ^ 50 * 64
        let a := { EventArg.none with n₁ := pa % 2 ^ 44, flag := v.getLsbD 60 }
        v.getLsbD 63 = true → v &&& 0x2F0000000000003F#64 = 0 → s.isLocal pa = true →
        regionOf (pa % 2 ^ 44) = .hbm →
        writes ((if v.getLsbD 62 then s.post .errinjScrub a else s).post .errinjInject a)) ∧
      (∀ c w, regName off = some (.block c w) → 1 ≤ w → w < 12 → s.arg.n₃ = 2 →
        writes (s.setBlockWord c w v)) ∧
      (∀ n, regName off = some (.doorbell n) →
        writes (s.post .doorbell { EventArg.none with tile := n })))) ∧
  (∀ s : State,
    let ctx := s.arg.n₁ % 4096
    s.arg.flag = false →
    (ctx = 0 → exec .ctxkill s = .next s) ∧
    (ctx ≠ 0 → s.alone = true → (s.others.map (·.1)).Nodup → s.launches = [] → s.gangs = [] →
      (∀ p ∈ s.tiles, p.2.remote = [] ∧ p.2.cmds = []) →
      ∃ t, exec .ctxkill s = .next t ∧ (∀ c, c ∈ t.killed ↔ c = ctx ∨ c ∈ s.killed) ∧
        t.mem = s.mem ∧ (∀ r ∈ t.reclaims, r.ctx ≠ ctx) ∧ (∀ g ∈ t.graphs, g.ctx ≠ ctx) ∧
        (∀ k < 32, let c := vget s.cores k ⟨0, false, false, 0, 0, none⟩
          vget t.cores k ⟨0, false, false, 0, 0, none⟩ =
            if (c.virt = true ∧ c.dctx.toNat % 4096 = ctx) ∨ c.dctx.toNat / 2 ^ 16 % 4096 = ctx then
              { c with interrupt := some ctx, virt := false } else c) ∧
        ∀ n < 2048, let old := s.getTile n
          let new := t.getTile n
          (old.ctx = ctx → new.run = .halted ∧ new.level = 2 ∧ new.ctx = 0 ∧ new.cmds = [] ∧
            new.inj = (old.inj.filter (·.ctx != ctx)).map (fun e => { e with orphan := true }) ∧
            new.inbox = [] ∧ new.tasks = TaskTable.empty ∧ new.place = none ∧
            new.acSeq.running = false ∧ new.stSeq.running = false ∧ new.sram = old.sram) ∧
          (old.ctx ≠ ctx → new = { old with
            feWaits := new.feWaits, inj := old.inj.filter (·.ctx != ctx) })))

/-- 16 R411 to R416, 13 R342, 15 R386, R397, 20 R454, R455: the pre-emption of a running gang
whose context has free slots stops its harts; each is saved in turn into the lowest free slot,
once its stores are performed (07 R174), and the gang then waits, held or requeued, and keeps the
numbers and the arrivals of its domains; placed again, its harts are loaded and it runs. That a
saved gang keeps the numbers and the definitions of its barrier domains and takes them again is
the model's choice (log 39), as are what an event acts on, and that a machine at rest answers at
once (logs 5 and 6). -/
def Obligations.PreemptionSavesAndResumesGangs : Prop :=
  (∀ (s : State) (g : Gang) (l : Launch),
    let stops (front hold : Bool) : State :=
      let u := g.tiles.foldl (fun u n => u.stopHart n)
        (s.modGang g.lid g.idx fun g => { g with
          state := .stopping, front := front, hold := hold, stopped := s.cc })
      if s.choice.defer then u
      else (u.byLaunch g.tiles).reverse.foldl
        (fun u n => u.post .proofSave { EventArg.none with tile := n }) u
    let room : Prop := (s.slotsHeld l.ctx).1.length + (s.slotsHeld l.ctx).2 + g.tiles.length ≤
      min 4096 (s.blockWord l.ctx 11).toNat
    s.launch g.lid = some l → s.gang g.lid g.idx = some g →
    (s.arg.n₁ = g.lid → s.arg.n₂ = g.idx → ¬(s.arg.flag = true ∧ recDomain l.words = true) →
      (g.state = .running → room → exec .preemptRequest s = .next (stops (!s.arg.flag) false)) ∧
      (g.state ≠ .running ∨ ¬room → exec .preemptRequest s = .next s)) ∧
    (s.gangOf s.arg.n₁ = some g →
      (recDomain l.words = false → g.state = .running → room →
        exec .preqPreemptHold s = .next (stops true true)) ∧
      (recDomain l.words = true ∨ g.state ≠ .running ∨ ¬room →
        exec .preqPreemptHold s = .next s) ∧
      (g.state ≠ .held → exec .preqRelease s = .next s) ∧
      (g.state = .held → ∃ t, exec .preqRelease s = .next t ∧
        t.gang g.lid g.idx = some { g with state := .requeued, front := true, stamp := s.stamp }))) ∧
  (∀ (s : State) (p : Place) (g : Gang) (l : Launch) (slot : Nat), s.arg.tile = s.cur →
    s.who = .eh → s.tile.run = .stopped → s.tile.place = some p → s.stopDue s.cur = true →
    s.gang p.lid p.gang = some g → s.launch p.lid = some l → s.freeSaveSlot l.ctx = some slot →
    let left := (s.byLaunch g.tiles).filter fun k => (s.getTile k).place.isSome
    left.head? = some s.cur →
    let held := s.areaHeld (s.slotPages l.ctx slot) true
    (s.tile.storesDone = false ∨ held = true → exec .proofSave s = .next s) ∧
    let u := s.tile.atRest
    let h : SavedHart := ⟨p.launch, s.freshStore, slot, s.cur⟩
    let t := ((((s.setTile s.cur u).saveHart s.cur s.freshStore (s.slotPages l.ctx slot)
        (u.areaHeader s.gtc p.launch u.eh.pc u.level)).modTile s.freshStore fun k =>
          { k with frame := s.tile.frame }).clearTile s.cur).modGang p.lid p.gang fun g =>
            { g with saved := g.saved ++ [h] }
    (s.tile.storesDone = true → held = false → left.length ≠ 1 → exec .proofSave s = .next t) ∧
    (s.tile.storesDone = true → held = false → left.length = 1 →
      ∃ t', exec .proofSave s = .next t' ∧ t'.mem = t.mem ∧
      t'.gang p.lid p.gang = some { g with
        saved := g.saved ++ [h], state := if g.hold then .held else .requeued
        tiles := [], domains := 0, kept := g.domains, doms := s.domains.filter g.holds
        stamp := s.stamp })) ∧
  (∀ (s : State) (g : Gang) (l : Launch), s.gang s.arg.n₁ s.arg.n₂ = some g →
    s.launch s.arg.n₁ = some l → g.state = .stopping → g.saved.length = g.tiles.length →
    g.saved ≠ [] →
    let move := s.movedTo g l (g.saved.any fun h => (s.getTile h.store).member.phase != .free)
    ((∀ n ∈ g.tiles, (s.getTile n).place = none ∧ (s.getTile n).run = .halted ∧
        (s.getTile n).ctx = 0 ∧ s.poweredTile n = true) →
      (∀ h ∈ g.saved, s.areaHeld (s.slotPages l.ctx h.slot) false = false ∧
        s.injRoom l move h = true) →
      let u := g.saved.foldl (fun s h => s.resumeHart g l move h) s
      let doms := (g.doms.filter fun d => bitAt g.domains d.num).map fun (d : Domain) =>
        { d with die := g.die, tiles := d.tiles.map move, arrived := d.arrived.map move }
      exec .gangResume s = .next ({ u with domains := doms ++ u.domains }.modGang s.arg.n₁ s.arg.n₂
        fun g => { g with
          state := .running, saved := [], doms := [], startNs := u.gtc
          gone := g.gone.map move })) ∧
    ((∃ n ∈ g.tiles, (s.getTile n).run ≠ .halted) ∨ (∃ h ∈ g.saved,
        s.areaHeld (s.slotPages l.ctx h.slot) false = true ∨ s.injRoom l move h = false) →
      exec .gangResume s = .next s))

/-- 17 R430 to R438: the host reads and writes HBM by its local address, which takes the page to
host bias first, the launch window, and BIASCMD and BIASSTAT; a command flips the bias of a page,
whose lines are recalled one by one, or that the host gives up as it answers snoops; a core of the
application complex accesses memory with the context of its mode. That what the host writes has
owner tag 0, when an access is an Unsupported Request, and how the host reaches its own memory
behind the window (log 51), that a core's access to HBM is one step, its misaligned ones (log 52),
what an event acts on, and that a machine at rest answers at once (logs 5 and 6), are the model's
choices. -/
def Obligations.HostAndApplicationComplexAccessTheDevice : Prop :=
  (∀ s : State, s.choice.defer = false →
    let la := s.arg.n₁
    let n := s.arg.bytes.length
    let v := readLE (fun i => s.arg.bytes.getD i 0) 0 n
    let page := la / 4096
    let quiet : Prop := s.alone = true ∧ s.uncached (lineOf la) = true ∧ s.flipOf page = none
    let one (k : Nat) : Prop := 1 ≤ k ∧ la / 64 = (la + k - 1) / 64
    let accepted (u : State) : State := { u with hostError := false }
    let answered (u : State) (d : Nat) : State := { accepted u with hostData := some (la, d) }
    let refused : State := { s with hostData := none, hostError := true }
    (s.arg.n₃ ≠ 3 → s.mgmt.up = false →
      exec .hostMemWrite s = .next s ∧ exec .hostMemRead s = .next s) ∧
    (s.mgmt.up = true →
      (s.arg.n₃ = 0 →
        (s.cxlActive = false ∨ s.inHdm la = false →
          exec .hostMemWrite s = .next refused ∧ exec .hostMemRead s = .next refused) ∧
        (¬one n → exec .hostMemWrite s = .next refused) ∧
        (¬one s.arg.n₂ → exec .hostMemRead s = .next refused) ∧
        (s.cxlActive = true → s.inHdm la = true → quiet →
          (page ∈ s.hostBias →
            (one n → exec .hostMemWrite s = .next ((accepted s).writeMem 0 la n v)) ∧
            (one s.arg.n₂ → exec .hostMemRead s = .next { answered s (s.readMem la s.arg.n₂) with
              snoop := if s.arg.flag then s.snoop else insertNat s.snoop (lineOf la)
              snoopClean := if s.arg.flag then s.snoopClean
                else s.snoopClean.filter (· != lineOf la) })) ∧
          (page ∉ s.hostBias → s.flips ≠ [] →
            (one n → exec .hostMemWrite s = .next s) ∧
            (one s.arg.n₂ → exec .hostMemRead s = .next s)) ∧
          (page ∉ s.hostBias → s.flips = [] →
            (∀ p ∈ s.tiles, ∀ l ∈ p.2.cache, l.owned = false) → one n → exec .hostMemWrite s =
              .next ((accepted { s with hostBias := insertNat s.hostBias page }).writeMem 0 la n
                v)))) ∧
      (s.arg.n₃ = 1 →
        (1 ≤ n → n ≤ 128 → la + n ≤ 0x80000 →
          let m := writeLE (fun (m : Memory) a b => m.write a b) s.mem (0x20000000000 + la) v n
          let u := accepted { s with mem := m }
          exec .hostMemWrite s = .next (if la / 128 < (la + n) / 128 then
            u.post .launchTrigger { EventArg.none with n₂ := (la + n) / 128 - 1 } else u)) ∧
        (n = 0 ∨ 128 < n ∨ 0x80000 < la + n → exec .hostMemWrite s = .next refused) ∧
        (la < 0x80000 → la % 8 = 0 → s.arg.n₂ = 8 → exec .hostMemRead s =
          .next (answered s (s.readLaunch la).toNat)) ∧
        (0x80000 ≤ la ∨ la % 8 ≠ 0 ∨ s.arg.n₂ ≠ 8 → exec .hostMemRead s = .next refused)) ∧
      (s.arg.n₃ = 2 →
        (n = 8 → la % 8 = 0 → la < 0x10000 →
          let w : Word := BitVec.ofNat 64 v
          let a := { EventArg.none with w₁ := w }
          (la = 0 → exec .hostMemWrite s = .next (if w.getLsbD 63 = false then
              accepted { s with biascmd := w &&& 0x40000FFFFFFFF000#64 }
            else (accepted s).post (if w.getLsbD 62 then .biasFlipHost else .biasFlipDevice) a)) ∧
          (la = 8 → exec .hostMemWrite s = .next ((accepted s).post .biasstatErrClear a)) ∧
          (16 ≤ la → exec .hostMemWrite s = .next (accepted s))) ∧
        (s.arg.n₂ = 8 → la % 8 = 0 → la < 0x10000 → exec .hostMemRead s = .next (answered s
          (if la = 0 then s.biascmd.toNat else if la = 8 then s.biasStat.toNat else 0))) ∧
        (n ≠ 8 ∨ la % 8 ≠ 0 ∨ 0x10000 ≤ la → exec .hostMemWrite s = .next refused) ∧
        (s.arg.n₂ ≠ 8 ∨ la % 8 ≠ 0 ∨ 0x10000 ≤ la → exec .hostMemRead s = .next refused))) ∧
    (s.arg.n₃ = 3 → s.alone = true → s.uncached (lineOf (0x38000000000 + la)) = true →
      let own := 0x38000000000 + la
      (one n → la + n ≤ 0x8000000000 → exec .hostMemWrite s = .next (s.writeMem 0 own n v)) ∧
      (one s.arg.n₂ → la + s.arg.n₂ ≤ 0x8000000000 →
        exec .hostMemRead s = .next (answered s (s.readMem own s.arg.n₂))))) ∧
  (∀ s : State,
    let page := s.arg.w₁.toNat / 4096 % 2 ^ 32
    let lines := s.ownedLines page
    (s.flips ≠ [] ∨ regionOf (4096 * page) ≠ .hbm →
      exec .biasFlipHost s = .next { s with biasErr := true } ∧
      exec .biasFlipDevice s = .next { s with biasErr := true }) ∧
    (s.flips = [] → regionOf (4096 * page) = .hbm →
      let cmd : Word := s.arg.w₁ &&& 0xFFFFFFFF000#64
      (page ∈ s.hostBias → exec .biasFlipHost s = .next { s with
        biascmd := cmd ||| 0x4000000000000000#64, biasDone := s.biasDone + 1, msix := s.msix + 1 }) ∧
      (page ∉ s.hostBias → exec .biasFlipDevice s = .next { s with
        biascmd := cmd, biasDone := s.biasDone + 1, msix := s.msix + 1 }) ∧
      (page ∉ s.hostBias →
        let u := { s with
          biascmd := cmd ||| 0x4000000000000000#64, flips := [⟨page, true, true, lines⟩] }
        exec .biasFlipHost s = .next (if s.choice.defer then u
          else u.post .biasFlipDone { EventArg.none with n₁ := page })) ∧
      (page ∈ s.hostBias →
        let held := s.heldLines page
        let u : State := { s with
          biascmd := cmd, flips := [⟨page, false, true, held⟩]
          snoopClean := s.snoopClean.filter fun l => l / 4096 != page }
        exec .biasFlipDevice s = .next (if s.choice.defer then u
          else held.reverse.foldl
            (fun u l => u.post .birsp { EventArg.none with n₁ := 1, n₃ := l })
            (u.post .biasFlipDone { EventArg.none with n₁ := page })))) ∧
    (∀ f, s.flips = [f] → f.page = s.arg.n₁ →
      (∀ l rest, f.lines = l :: rest → f.toHost = true → s.choice.defer = true →
        exec .biasFlipDone s = .next { s.recall l with flips := [{ f with lines := rest }] }) ∧
      (∀ l rest, f.lines = l :: rest → f.toHost = false → exec .biasFlipDone s = .next s) ∧
      (f.lines = [] → f.command = true → exec .biasFlipDone s = .next { s with
        flips := [], biasDone := s.biasDone + 1, msix := s.msix + 1
        hostBias := if f.toHost then insertNat s.hostBias f.page
          else s.hostBias.filter (· != f.page) })) ∧
    (let line := lineOf s.arg.n₃;
      (line ∉ s.snoop → exec .birsp s = .next s) ∧
      (line ∈ s.snoop → 2 ≤ s.arg.n₁ → s.arg.bytes = [] →
        (∀ f ∈ s.flips, f.toHost = true ∨ line ∉ f.lines) →
        exec .birsp s = .next { s with snoopClean := insertNat s.snoopClean line }) ∧
      (line ∈ s.snoop → s.arg.n₁ = 1 → s.arg.bytes = [] → exec .birsp s = .next { s with
        snoop := s.snoop.filter (· != line)
        snoopClean := s.snoopClean.filter (· != line)
        flips := s.flips.map fun f => if f.toHost then f else
          { f with lines := f.lines.filter (· != line) } })) ∧
    (exec .biasstatErrClear s = .next (if s.arg.w₁.getLsbD 62 then { s with biasErr := false }
      else s))) ∧
  (∀ s : State,
    let k := s.arg.n₁
    let c := vget s.cores k ⟨0, false, false, 0, 0, none⟩
    let size := s.arg.w₂.toNat
    let la := localAddr s.arg.n₂
    let ctx := if s.arg.flag then c.dctx.toNat % 4096 else c.dctx.toNat / 2 ^ 16 % 4096
    let core (u : State) (f : Bool) (d up : Word) : State := { u with
      cores := vset s.cores k { c with virt := s.arg.flag, fault := f, data := d, upper := up } }
    let fails : Prop := exec .coreDeviceAccess s = .next (core s true c.data c.upper)
    let gives (u : State) (v : Nat) : Prop :=
      exec .coreDeviceAccess s = .next (core u false (BitVec.ofNat 64 v) (BitVec.ofNat 64 (v / 2 ^ 64)))
    let d := s.arg.w₁.toNat % 256 ^ size
    let aligned : Prop := k < 32 ∧ s.arg.n₂ + size ≤ 2 ^ 56 ∧ s.arg.n₂ % size = 0
    let known (op : CoreOp) : Prop := op.sizeOk size = true ∧ coreOp s.arg.n₃
      (if size = 16 then (slice s.arg.vec 128 128).toNat else s.arg.w₃.toNat) = some op
    exec .dctx s = .next { s with
      cores := vset s.cores k { c with dctx := s.arg.w₁ &&& 0xFFF0FFF#64 } } ∧
    (aligned → ∀ op, known op →
      (s.isPresent s.arg.n₂ = false ∨ regionOf la = .unmapped → fails) ∧
      (s.isLocal s.arg.n₂ = true → regionOf la = .hbm → ctx = 0 → fails)) ∧
    (aligned → s.alone = true → s.isLocal s.arg.n₂ = true → regionOf la = .hbm → ctx ≠ 0 →
      s.uncached (lineOf la) = true →
      let old := s.readMem la size
      let wrote (v : Nat) : State := s.writeMem ctx la size v
      let mine := (k, lineOf la)
      (size ∈ [1, 2, 4, 8] →
        (s.arg.n₃ = 0 → gives s old) ∧
        (s.arg.n₃ = 1 → exec .coreDeviceAccess s = .next (core (wrote d) false c.data c.upper))) ∧
      (size = 4 ∨ size = 8 →
        (s.arg.n₃ = 2 → gives { s with
          reservations := mine :: s.reservations.filter fun p => p.1 != k } old) ∧
        (s.arg.n₃ = 3 →
          let free : State := { s with reservations := s.reservations.filter fun p => p.1 != k }
          (mine ∈ s.reservations → gives (free.writeMem ctx la size d) 0) ∧
          (mine ∉ s.reservations → gives free 1)) ∧
        (s.arg.n₃ = 4 → gives (if old = s.arg.w₃.toNat then wrote d else s) old) ∧
        (∀ op, op ≤ 8 → s.arg.n₃ = 16 + op →
          gives (wrote (amoOp op size ⟨.rne, false⟩ old d).1) old)) ∧
      (size = 16 → s.arg.n₃ = 4 → gives (if old = (slice s.arg.vec 128 128).toNat then
        wrote (slice s.arg.vec 0 128).toNat else s) old)) ∧
    (k < 32 → s.arg.n₂ + size ≤ 2 ^ 56 → s.arg.n₂ % size ≠ 0 →
      (∀ op, known op → op ≠ .load → op ≠ .store → fails) ∧
      (s.arg.n₃ = 0 → size ∈ [2, 4, 8] → s.alone = true → ctx ≠ 0 →
        (∀ i < size, s.isLocal (s.arg.n₂ + i) = true ∧ regionOf (localAddr (s.arg.n₂ + i)) = .hbm ∧
          s.uncached (lineOf (localAddr (s.arg.n₂ + i))) = true) →
        exec .coreDeviceAccess s = .next (core s false
          (BitVec.ofNat 64 (readLE (fun i => s.readByte (localAddr i)) s.arg.n₂ size)) 0))))

/-- 17 R440 to R446, 01 R14, R20, R21: firmware is updated, activated, that of a dispatcher while
no launch of its die is PARSING, and restored where it does not report ready in time;
measurements, sensors and the power cap; spare tiles and channels, the loss of a tile and of a
device; bring-up; throttling. SHA-512 is that of its standard, which the model presumes (log 23);
that bring-up is one step, and a channel is spared line by line, are the model's choices (log 53),
as are what an event acts on, and that a machine at rest answers at once (logs 5 and 6). -/
def Obligations.ManagementServesTheDevice : Prop :=
  ∀ s : State,
    let k := s.arg.n₁
    let f := vget s.mgmt.firmware k Firmware.reset
    let unit (f : Firmware) : State :=
      { s with mgmt := { s.mgmt with firmware := vset s.mgmt.firmware k f } }
    let answered (u : State) (v : Nat) : State :=
      { u with mgmt := { u.mgmt with reports := v :: u.mgmt.reports } }
    let n := s.arg.tile
    (k < 6 →
      (f.pending = none →
        let ok := Config.signatureOk s.arg.bytes
        exec .pldmFwUpdate s = .next (answered (unit (if f.activeB
          then { f with imageA := s.arg.bytes, verified := ok }
          else { f with imageB := s.arg.bytes, verified := ok })) (if ok then 1 else 0)) ∧
        let parsing : Prop := ∃ p ∈ s.parsing, recKind p.words ≠ 1 ∨ k ∈ recDies p.words
        (f.verified = true → k < 4 → parsing → exec .fwActivate s = .next s) ∧
        (f.verified = true → (k < 4 → ¬parsing) → exec .fwActivate s = .next (unit { f with
          activeB := !f.activeB, verified := false, ready := false, pending := some s.gtc })) ∧
        exec .fwActivateTimeout s = .next s) ∧
      (f.verified = false → exec .fwActivate s = .next s) ∧
      (∀ t, f.pending = some t →
        let back := unit { f with
          activeB := !f.activeB, verified := false, ready := true, pending := none }
        (t + 10000000000 ≤ s.gtc →
          exec .fwActivateTimeout s = .next back ∧ exec .firmwareReady s = .next back) ∧
        (s.gtc < t + 10000000000 → exec .fwActivateTimeout s = .next s)) ∧
      ((∀ t, f.pending = some t → s.gtc < t + 10000000000) →
        exec .firmwareReady s = .next (unit { f with ready := true, pending := none }))) ∧
    (let image (u : Nat) : List Byte :=
        let f := vget s.mgmt.firmware u Firmware.reset
        if f.activeB then f.imageB else f.imageA;
      let measures (m : Nat) (b : List Byte) : Prop :=
        k = m → exec .spdmMeasurement s = .next (answered s (sha512 b))
      measures 1 Config.bootRom ∧ measures 2 (image 4) ∧ measures 3 (image 0) ∧
      measures 4 (image 1) ∧ measures 5 (image 2) ∧ measures 6 (image 3) ∧ measures 7 (image 5) ∧
      measures 8 (Config.serviceImage ((s.tiles.filter fun p =>
        decide (p.1 < 2048) && p.2.physical == 32).map (·.1)) s.service.retired)) ∧
    (256 ≤ k → exec .pldmSensorRead s = .next (answered s
      (s.banks.filter fun b => b.bank / 4096 == k - 256 && b.w0.getLsbD 8).length)) ∧
    (k < 256 → exec .pldmSensorRead s = .next (answered { s with
      mgmt := { s.mgmt with sensors := putKey s.mgmt.sensors k s.arg.n₂ } } s.arg.n₂)) ∧
    (800 ≤ k → k ≤ 2400 →
      exec .pldmPowerCap s = .next { s with mgmt := { s.mgmt with powerCap := k } }) ∧
    (n < 2048 →
      (n / 32 ∈ s.service.sparesUsed ∨ (s.getTile n).place ≠ none ∨ (∃ g ∈ s.gangs, n ∈ g.tiles) →
        exec .tileSpareRemap s = .next s) ∧
      (n / 32 ∉ s.service.sparesUsed → (s.getTile n).place = none → (∀ g ∈ s.gangs, n ∉ g.tiles) →
        ∃ u, exec .tileSpareRemap s = .next u ∧ n / 32 ∈ u.service.sparesUsed ∧
          u.getTile n = { s.getTile n with physical := 32, placeable := true } ∧
          ∀ m, m ≠ n → u.getTile m = s.getTile m) ∧
      (n / 32 ∈ s.service.sparesUsed → exec .tileLoss s =
        .next (s.modTile n fun t => { t with placeable := false }))) ∧
    (s.arg.flag = true → exec .hbmChannelSpare s = .next { s with service := { s.service with
      sparing := none, spared := insertNat s.service.spared k } }) ∧
    (s.arg.flag = false → s.choice.defer = true → exec .hbmChannelSpare s = .next { s with
      service := { s.service with sparing := some (k, lineOf s.arg.n₂) } }) ∧
    (∃ u, exec .failedDeviceRemoval s = .next u ∧ u = { s with peers := u.peers } ∧
      ∀ d, d ∈ u.peers ↔ d ∈ s.peers ∧ d ≠ k) ∧
    (∃ u, exec .thermalThrottle s = .next u ∧ ∀ d < 4, vget u.mgmt.throttled d false =
      (if d = k then true else vget s.mgmt.throttled d false)) ∧
    (∃ u, exec .thermalConditionClears s = .next u ∧ ∀ d < 4, vget u.mgmt.throttled d false =
      (if d = k then false else vget s.mgmt.throttled d false)) ∧
    (s.mgmt.up = true ∨ s.arg.flag = true → exec .powerOnBringup s = .next s) ∧
    (s.mgmt.up = false → s.arg.flag = false → k < 0xC00 → ∃ u, exec .powerOnBringup s = .next u ∧
      u.peers = s.arg.ids.filter (fun d => d != k && decide (d < 0xC00)) ∧
      u.device = (if u.peers = [] then 0 else k) ∧ u.mgmt.up = true ∧ u.mem = s.mem ∧
      u.gtc = (if u.peers = [] then s.gtc else s.arg.n₂) ∧
      ∀ d < 4, vget u.resetvec d 0 = slice s.arg.vec (64 * d) 64 ∧
        (s.arg.n₃.testBit d = false → vget u.mgmt.powered d false = true ∧ ∀ m < 2048,
          m / 512 = d → (s.getTile m).run = .halted → (u.getTile m).run = .running ∧
            (u.getTile m).level = 2 ∧ ((s.getTile m).cr.ftvec = none →
              (u.getTile m).eh.pc = slice s.arg.vec (64 * d) 64 &&& ~~~3#64)) ∧
        (s.arg.n₃.testBit d = true → vget u.mgmt.powered d false = false ∧ ∀ m < 2048,
          m / 512 = d → u.getTile m = s.getTile m))

/-- 01 R30: the state of the device when reset is released. Of the values that this rule calls
unknown nothing is said. -/
def Obligations.ResetLeavesTheDeviceAsStated : Prop :=
  let s := State.reset
  s.banks = [] ∧ s.launches = [] ∧ s.gangs = [] ∧ s.compacts = [] ∧ s.heads = Vector.replicate 4 [] ∧
  ∀ n < 2048, let t := s.getTile n
    t.member.phase = .free ∧ t.place = none ∧
    t.cr.segmode = 0 ∧ t.cache = [] ∧
    t.run = .halted ∧ t.level = 2 ∧ t.eh.pc = BitVec.ofNat 64 (n / 512 * 0x1800000000) ∧
    t.acSeq.running = false ∧ t.stSeq.running = false ∧
    t.channels = Vector.replicate 8 ⟨false, [], 0⟩ ∧ t.inj = [] ∧
    t.boqA = [] ∧ t.boqS = [] ∧ t.boqE = [] ∧ t.queues = Vector.replicate 8 []

/-- The memory of the reset state is in canonical form (log 1). -/
def Obligations.ResetMemoryIsCanonical : Prop := State.reset.mem.wf = true

/-- Every step keeps the canonical form of memory: addresses rise strictly, and no entry equals
what an unlisted address reads as (log 1). -/
def Obligations.MemoryStaysCanonical : Prop :=
  ∀ s s' : State, s.mem.wf = true → step s = .next s' → s'.mem.wf = true

/-- 02 R32, R40, R44, 04 R77: a step with an empty agenda runs the word at the pc of the execute
hart: it executes the instruction that the word decodes to, or traps ILLOP; what is due at the
boundary comes after it. An instruction that has issued and waits goes on without a fetch. With
nothing due, and no hart saved, the step is the instruction itself, or, where it traps, the trap,
with what the instruction waited for withdrawn (06 R140). With a
turn of a unit first in the agenda the step is that turn, and with an event that event (log 5). -/
def Obligations.StepRunsTheDecodedWord : Prop :=
  (∀ (s : State) (w : Word32), s.agenda = [] → s.tile.frame = none → s.tile.run = .running →
    let z := { s with who := .eh, exc := false }
    let u := { z with ir := w, tile := { s.tile with fetched := [], loading := false } }
    z.issuedWord = some w ∨ (z.issuedWord = none ∧ z.detectFetch s.tile.eh.pc = z ∧
      z.fetchWord s.tile.eh.pc = .ok w) →
    (∀ i, decodeWord w = .ok i →
      step s = landInAreas s (z.boundary (exec i u)) ∧
      (∀ t, exec i u = .next t → s.areas = [] → s.tile.deferred = [] →
        s.tile.dueInterrupt s.gtc = none →
        step s = .next (if t.exc then t.withdraw.stopIfDue else t.stopIfDue).flushReports ∧
        (t.exc = false → t.stopDue t.cur = false → t.reportsHeld = [] → step s = .next t))) ∧
    (∀ e, decodeWord w = .error e → step s = landInAreas s (z.boundary (.next (u.illop w))))) ∧
  (∀ (s : State) (m : Move) (rest : List Move), s.agenda = m :: rest →
    let z := { s with agenda := rest }
    (∀ n u, m = .unit n u → n < 2048 → step s = landInAreas z ((z.focus n).turn u)) ∧
    (∀ i a, m = .event i a → encode i = 0 →
      step s = landInAreas z (exec i { z with arg := a, exc := false })) ∧
    (∀ cc ns, m = .time cc ns → step s = .next { z with cc := s.cc + cc, gtc := s.gtc + ns }) ∧
    (∀ c, m = .choose c → step s = .next { z with choice := c }))

/-- 02 R32 to R35, R38: the worked words of the encoding, and words of other families written out
from their formats, decode to the instructions that they stand for. -/
def Obligations.DecodeReadsTheseWords : Prop :=
  decodeWord 0x0094AFF0#32 = .ok (.addi 0 10 10 0xFF0) ∧
  decodeWord 0x0A8E2018#32 = .ok (.sd 0 7 2 24) ∧
  decodeWord 0x044A0FFD#32 = .ok (.bne 0 5 0 0xFFD) ∧
  decodeWord 0x0253FFFF#32 = .ok (.ldhi 0 9 0x1FFFF) ∧
  decodeWord 0x05820040#32 = .ok (.jal 0 1 0x40) ∧
  decodeWord 0x02084803#32 = .ok (.srai 0 4 4 3) ∧
  decodeWord 0xB1081108#32 = .ok (.vfma 5 4 1 2 0 .f32) ∧
  decodeWord 0x0E86A587#32 = .ok (.amoadd 0 3 10 11 1 3) ∧
  decodeWord 0x1FC00002#32 = .ok .eret ∧
  decodeWord 0x1F406380#32 = .ok (.send 0 6 7)

/-- 02 R33, R35, R38, R39: every well-formed instruction that has a word is the one that its word
decodes to, from the word and from its four bytes (R1), whatever bytes follow. -/
def Obligations.DecodeEncodeRoundTrip : Prop :=
  ∀ i : Instr, i.wellFormed = true → encode i ≠ 0 →
    decodeWord (encode i) = .ok i ∧ ∀ rest, decode (wordBytes (encode i) ++ rest) = .ok (i, rest)

/-- 02 R38, R39: a word that decodes is the word of its instruction in every bit; the eleven
instructions without a STALL field carry the word's own. -/
def Obligations.DecodedWordsAreEncodings : Prop :=
  ∀ (w : Word32) (i : Instr), decodeWord w = .ok i →
    i.wellFormed = true ∧
    (encode i = w ∨ (i ∈ ([.fencei, .fencea, .uiret, .cdiss, .sstep, .sxend, .ecall, .ebrk, .eret,
      .wfi, .halt] : List Instr) ∧ encode i &&& 0x1FFFFFFF#32 = w &&& 0x1FFFFFFF#32))
end

