-- ==== Sys2Proof/Laws/Issue.lean ====
section
/-! SUPPORT. What issue does with an instruction: it runs, waits, or traps. -/
namespace Sys2Proof.Machine

/-- An instruction that nothing holds up and no check refuses performs its body. -/
theorem issue_runs {s : State} {i : Issue} {body : State → State}
    (hu : i.units.has s.who = true) (hs : i.serial = false)
    (hv : (i.vector && s.who == .eh && s.tile.frame.isSome) = false)
    (hr : s.ready i.reads i.writes = true) (hi : i.illegal s = false)
    (hl : ¬ s.tile.level < i.level) (hp : i.priv s = false) : s.issue i body = body s := by
  have hw : s.mustWait i = false := by
    simp only [State.ready, Bool.and_eq_true, List.all_eq_true, Bool.not_eq_true'] at hr
    obtain ⟨⟨h₁, h₂⟩, -⟩ := hr
    simp only [State.mustWait, hs, hv, Bool.false_and, Bool.false_or, Bool.or_eq_false_iff,
      List.any_eq_false]
    exact ⟨⟨fun r h => by simp [(h₁ r h).1], fun r h => by simp [h₂ r h]⟩,
      fun r h => by simp [(h₁ r h).2]⟩
  have hc : s.schkFails i = none := by
    simp only [State.schkFails, hs, Bool.not_false, Bool.and_true]
    split
    · rename_i h
      simp only [State.ready, h, Bool.not_true, Bool.false_or, Bool.and_eq_true, List.all_eq_true]
        at hr
      rw [List.findSome?_eq_none_iff]
      intro r hmem
      simpa using hr.2 r hmem
    · rfl
  simp [State.issue, hu, hw, hs, hi, hl, hp, hc]

/-- A serializing instruction that nothing holds up performs its body on settled registers. -/
theorem issue_serial {s : State} {i : Issue} {body : State → State}
    (hu : i.units.has s.who = true) (hs : i.serial = true) (hd : s.drained = true)
    (hv : (i.vector && s.who == .eh && s.tile.frame.isSome) = false)
    (hr : s.ready i.reads i.writes = true)
    (hi : i.illegal s.settle = false) (hl : ¬ s.settle.tile.level < i.level)
    (hp : i.priv s.settle = false) :
    s.issue i body = body s.settle := by
  have hw : s.mustWait i = false := by
    simp only [State.ready, Bool.and_eq_true, List.all_eq_true, Bool.not_eq_true'] at hr
    obtain ⟨⟨h₁, h₂⟩, -⟩ := hr
    simp only [State.drained, Bool.and_eq_true, Bool.not_eq_true'] at hd
    simp only [State.mustWait, hs, hv, hd.1, hd.2, Bool.or_false, Bool.and_false, Bool.false_or,
      Bool.or_eq_false_iff, List.any_eq_false]
    exact ⟨⟨fun r h => by simp [(h₁ r h).1], fun r h => by simp [h₂ r h]⟩,
      fun r h => by simp [(h₁ r h).2]⟩
  have hc : s.settle.schkFails i = none := by simp [State.schkFails, hs]
  simp [State.issue, hu, hw, hs, hi, hl, hp, hc]

/-- A unit that does not execute the instruction traps ILLOP (02 R42). -/
theorem issue_wrong_unit {s : State} {i : Issue} {body : State → State}
    (hu : i.units.has s.who = false) : s.issue i body = s.illop i.word := by
  simp [State.issue, hu]

end Sys2Proof.Machine
end

