-- ==== Sys2Proof/Laws/Memory.lean ====
section
/-! SUPPORT. Memory as a list in canonical form: a read after a write, and that every operation on
memory keeps the form. -/
namespace Sys2Proof.Machine

/-! ### The canonical form -/

theorem Memory.wf_cons {c : Host.Cell} {m : Memory} (h : Memory.wf (c :: m) = true) :
    c.2 ≠ Memory.unlisted ∧ (∀ d ∈ m, c.1 < d.1) ∧ Memory.wf m = true := by
  induction m generalizing c with
  | nil => simpa [Memory.wf] using h
  | cons d rest ih =>
    obtain ⟨a, b⟩ := c
    obtain ⟨a', b'⟩ := d
    simp only [Memory.wf, Bool.and_eq_true, bne_iff_ne, decide_eq_true_eq] at h
    obtain ⟨⟨hb, hlt⟩, hw⟩ := h
    refine ⟨hb, ?_, hw⟩
    intro d hd
    rcases List.mem_cons.1 hd with rfl | hd
    · exact hlt
    · exact Nat.lt_trans hlt ((ih hw).2.1 d hd)

theorem Memory.cons_wf {c : Host.Cell} {m : Memory} (hb : c.2 ≠ Memory.unlisted)
    (hlt : ∀ d ∈ m, c.1 < d.1) (hw : Memory.wf m = true) : Memory.wf (c :: m) = true := by
  obtain ⟨a, b⟩ := c
  cases m with
  | nil => simpa [Memory.wf] using hb
  | cons d rest =>
    obtain ⟨a', b'⟩ := d
    simp only [Memory.wf, Bool.and_eq_true, bne_iff_ne, decide_eq_true_eq]
    exact ⟨⟨hb, hlt _ (List.mem_cons_self ..)⟩, hw⟩

theorem Memory.filter_wf {m : Memory} (p : Host.Cell → Bool) (h : m.wf = true) :
    Memory.wf (m.filter p) = true := by
  induction m with
  | nil => rfl
  | cons c rest ih =>
    obtain ⟨hb, hlt, hw⟩ := Memory.wf_cons h
    simp only [List.filter]
    split
    · exact Memory.cons_wf hb (fun d hd => hlt d (List.mem_filter.1 hd).1) (ih hw)
    · exact ih hw

theorem Memory.mem_insert {m : Memory} {a : Nat} {v : Byte} {d : Host.Cell}
    (h : d ∈ m.insert a v) : d = (a, v) ∨ d ∈ m := by
  induction m with
  | nil => simpa [Memory.insert] using h
  | cons c rest ih =>
    obtain ⟨a', b⟩ := c
    simp only [Memory.insert] at h
    split at h
    · rcases List.mem_cons.1 h with h | h
      · exact .inl h
      · exact .inr (List.mem_cons_of_mem _ h)
    · split at h
      · rcases List.mem_cons.1 h with h | h
        · exact .inl h
        · exact .inr h
      · rcases List.mem_cons.1 h with h | h
        · exact .inr (h ▸ List.mem_cons_self ..)
        · exact (ih h).imp_right (List.mem_cons_of_mem _)

theorem Memory.insert_wf {m : Memory} {a : Nat} {v : Byte} (hv : v ≠ Memory.unlisted)
    (h : m.wf = true) : (m.insert a v).wf = true := by
  induction m with
  | nil => simpa [Memory.insert, Memory.wf] using hv
  | cons c rest ih =>
    obtain ⟨a', b⟩ := c
    obtain ⟨hb, hlt, hw⟩ := Memory.wf_cons h
    simp only [Memory.insert]
    split
    · rename_i he
      subst he
      exact Memory.cons_wf hv hlt hw
    · split
      · rename_i hl
        refine Memory.cons_wf hv (fun d hd => ?_) h
        rcases List.mem_cons.1 hd with rfl | hd
        · exact hl
        · exact Nat.lt_trans hl (hlt d hd)
      · refine Memory.cons_wf hb (fun d hd => ?_) (ih hw)
        rcases Memory.mem_insert hd with rfl | hd
        · show a' < a
          omega
        · exact hlt d hd

/-- A write of one byte keeps the canonical form. -/
theorem Memory.write_wf {m : Memory} {a : Nat} {v : Byte} (h : m.wf = true) :
    (m.write a v).wf = true := by
  unfold Memory.write
  split
  · exact Memory.filter_wf _ h
  · exact Memory.insert_wf ‹_› h

/-! ### Reads after writes -/

theorem Memory.read_filter_self (m : Memory) (a : Nat) :
    Memory.read (m.filter fun c => c.1 != a) a = Memory.unlisted := by
  induction m with
  | nil => rfl
  | cons c rest ih =>
    obtain ⟨a', b⟩ := c
    simp only [List.filter]
    split
    · rename_i h
      have : a ≠ a' := fun e => by simp [e] at h
      simp [Memory.read, this, ih]
    · exact ih

theorem Memory.read_filter_ne (m : Memory) {a k : Nat} (h : k ≠ a) :
    Memory.read (m.filter fun c => c.1 != a) k = m.read k := by
  induction m with
  | nil => rfl
  | cons c rest ih =>
    obtain ⟨a', b⟩ := c
    simp only [List.filter]
    split
    · simp [Memory.read, ih]
    · rename_i e
      have : k ≠ a' := fun e' => by simp [← e', h] at e
      simp [Memory.read, this, ih]

theorem Memory.read_insert (m : Memory) (a k : Nat) (v : Byte) :
    (m.insert a v).read k = if k = a then v else m.read k := by
  induction m with
  | nil => simp [Memory.insert, Memory.read]
  | cons c rest ih =>
    obtain ⟨a', b⟩ := c
    simp only [Memory.insert]
    split
    · rename_i he
      subst he
      by_cases hk : k = a <;> simp [Memory.read, hk]
    · rename_i hne
      split
      · simp [Memory.read]
      · by_cases hk : k = a'
        · have : ¬ a' = a := fun e => hne e.symm
          simp [Memory.read, hk, this]
        · simp [Memory.read, hk, ih]

/-- A read after a write of one byte. -/
@[simp] theorem Memory.read_write (m : Memory) (a k : Nat) (v : Byte) :
    (m.write a v).read k = if k = a then v else m.read k := by
  unfold Memory.write
  split
  · rename_i hv
    split
    · rename_i hk
      rw [hk, Memory.read_filter_self, hv]
    · exact Memory.read_filter_ne m ‹_›
  · exact Memory.read_insert m a k v

/-! ### Values of several bytes -/

/-- A property that every byte write keeps is kept by a write of several bytes. -/
theorem writeLE_keeps {α : Type} (P : α → Prop) (f : α → Nat → Byte → α)
    (hf : ∀ x a b, P x → P (f x a b)) (x : α) (a v n : Nat) (h : P x) : P (writeLE f x a v n) := by
  induction n generalizing x a v with
  | zero => exact h
  | succ n ih => exact ih _ _ _ (hf _ _ _ h)

theorem foldl_keeps {α β : Type} (P : α → Prop) (f : α → β → α) (hf : ∀ x b, P x → P (f x b))
    (l : List β) (x : α) (h : P x) : P (l.foldl f x) := by
  induction l generalizing x with
  | nil => exact h
  | cons b rest ih => exact ih _ (hf _ _ h)

/-- A tile put into the list of tiles leaves memory alone. -/
@[simp] theorem setTile_mem (s : State) (n : Nat) (t : Tile) : (s.setTile n t).mem = s.mem := by
  unfold State.setTile
  split <;> rfl

@[simp] theorem modTile_mem (s : State) (n : Nat) (f : Tile → Tile) :
    (s.modTile n f).mem = s.mem := setTile_mem ..

@[simp] theorem focus_mem (s : State) (n : Nat) : (s.focus n).mem = s.mem := by
  unfold State.focus
  split <;> rfl

theorem writeByte_wf {s : State} (ctx la : Nat) (v : Byte) (h : s.mem.wf = true) :
    (s.writeByte ctx la v).mem.wf = true := by
  unfold State.writeByte
  split <;> first | exact h | exact Memory.write_wf h | (rw [modTile_mem]; exact h)

theorem writeBack_wf {s : State} (line sec : Nat) (l : CacheLine) (h : s.mem.wf = true) :
    (s.writeBack line sec l).mem.wf = true := by
  unfold State.writeBack
  split
  · exact h
  · exact foldl_keeps (fun m : Memory => m.wf = true) _ (fun _ _ h => Memory.write_wf h) _ _ h

theorem writeBackIf_wf {s : State} (b : Bool) (line sec : Nat) (l : CacheLine)
    (h : s.mem.wf = true) : (if b then s.writeBack line sec l else s).mem.wf = true := by
  cases b
  · exact h
  · exact writeBack_wf line sec l h

theorem writeBackLine_wf {s : State} (l : CacheLine) (h : s.mem.wf = true) :
    (s.writeBackLine l).mem.wf = true :=
  writeBackIf_wf l.dirty1 l.addr 1 l (writeBackIf_wf l.dirty0 l.addr 0 l h)

/-- A record of an error bank leaves memory alone. -/
@[simp] theorem record_mem (s : State) (id kind : Nat) (ue cont : Bool) (sub loc : Nat) :
    (s.record id kind ue cont sub loc).mem = s.mem := by
  unfold State.record State.setBank
  dsimp only
  split <;> (try split) <;> (try split) <;> rfl

@[simp] theorem loseDirty_mem (s : State) (k ctx : Nat) : (s.loseDirty k ctx).mem = s.mem :=
  record_mem ..

/-- Containment changes no byte of memory: a lost sector is lost by its poison (16 R426). -/
@[simp] theorem contain_mem (s : State) (k : Nat) : (s.contain k).mem = s.mem := by
  unfold State.contain
  split
  · dsimp only
    split <;> exact record_mem ..
  · split <;> dsimp only <;> split <;> exact record_mem ..

@[simp] theorem detect_mem (s : State) (k : Nat) : (s.detect k).mem = s.mem := by
  unfold State.detect
  split
  · rfl
  · dsimp only
    split
    · exact contain_mem ..
    · exact record_mem ..

theorem dropApp_wf {s : State} (line : Nat) (h : s.mem.wf = true) :
    (s.dropApp line).mem.wf = true := by
  unfold State.dropApp
  split
  · exact h
  · exact writeBackLine_wf _ h

@[simp] theorem detectLine_mem (s : State) (line : Nat) : (s.detectLine line).mem = s.mem := by
  simp [State.detectLine]

theorem recall_wf {s : State} (line : Nat) (h : s.mem.wf = true) :
    (s.recall line).mem.wf = true := by
  unfold State.recall
  split
  · split
    · exact dropApp_wf _ (by rw [detectLine_mem]; exact h)
    · exact h
  · split
    · exact h
    · exact writeBackLine_wf _ (by rw [modTile_mem, detectLine_mem]; exact h)

theorem evictLine_wf {s : State} (n line : Nat) (h : s.mem.wf = true) :
    (s.evictLine n line).mem.wf = true := by
  unfold State.evictLine
  split
  · exact h
  · exact writeBackLine_wf _ (by rw [modTile_mem]; exact h)

/-- A write of several bytes at their home keeps the canonical form. -/
theorem writeMem_wf {s : State} (ctx la n v : Nat) (h : s.mem.wf = true) :
    (s.writeMem ctx la n v).mem.wf = true :=
  writeLE_keeps (fun s : State => s.mem.wf = true) _ (fun _ _ _ h => writeByte_wf _ _ _ h) _ _ _ _
    (dropApp_wf _ (recall_wf _ h))

end Sys2Proof.Machine
end

