-- ==== Sys2Proof/Laws/Registers.lean ====
section
/-! SUPPORT. Register files with writes that are not visible yet (02 R45), and what the writers of
x registers leave. -/
namespace Sys2Proof.Machine

theorem vget_vset {α : Type} {n : Nat} (v : Vector α n) (i j : Nat) (x d : α) (h : i < n) :
    vget (vset v i x) j d = if j = i then x else vget v j d := by
  simp only [vget, vset, Vector.toList_setIfInBounds, List.getD_eq_getElem?_getD,
    List.getElem?_set, Vector.length_toList]
  by_cases hij : j = i
  · subst hij; simp [h]
  · simp [hij, Ne.symm hij]

theorem vget_vset_ne {α : Type} {n : Nat} (v : Vector α n) (i j : Nat) (x d : α) (h : j ≠ i) :
    vget (vset v i x) j d = vget v j d := by
  simp [vget, vset, Vector.toList_setIfInBounds, List.getD_eq_getElem?_getD, Ne.symm h]

namespace RegFile
variable {n w : Nat}

theorem find_filter_ne (l : List (Pend w)) {r r' p : Nat} (h : r' ≠ r) :
    (l.filter fun e => e.reg != r).find? (fun e => e.reg == r' && decide (e.at_ ≤ p)) =
      l.find? fun e => e.reg == r' && decide (e.at_ ≤ p) := by
  rw [List.find?_filter]
  congr 1
  funext e
  by_cases he : e.reg = r'
  · simp [he, h]
  · simp [he]

theorem commit_read (f : RegFile n w) (r : Nat) (v : BitVec w) (r' p : Nat) (h : r < n) :
    (f.commit r v).read r' p = if r' = r then v else f.read r' p := by
  by_cases hr : r' = r
  · subst hr
    have : (f.pend.filter fun e => e.reg != r').find?
        (fun e => e.reg == r' && decide (e.at_ ≤ p)) = none := by
      simp only [List.find?_eq_none, List.mem_filter]
      intro e ⟨_, he⟩; simp_all
    simp [read, commit, this, get, vget_vset _ _ _ _ _ h]
  · simp [read, commit, find_filter_ne _ hr, hr, get, vget_vset_ne]

/-- The newest write of a register that is visible at a position, and otherwise `d`. -/
def visible (l : List (Pend w)) (r p : Nat) (d : BitVec w) : BitVec w :=
  ((l.find? fun e => e.reg == r && decide (e.at_ ≤ p)).map (·.val)).getD d

theorem read_eq (f : RegFile n w) (r p : Nat) : f.read r p = visible f.pend r p (f.get r) := by
  unfold read visible
  cases f.pend.find? (fun e => e.reg == r && decide (e.at_ ≤ p)) <;> rfl

@[simp] theorem visible_nil (r p : Nat) (d : BitVec w) : visible [] r p d = d := rfl

theorem visible_cons (e : Pend w) (l : List (Pend w)) (r p : Nat) (d : BitVec w) :
    visible (e :: l) r p d = if e.reg = r ∧ e.at_ ≤ p then e.val else visible l r p d := by
  by_cases h : e.reg = r ∧ e.at_ ≤ p
  · simp [visible, h]
  · have : (e.reg == r && decide (e.at_ ≤ p)) = false := by simpa using h
    rw [if_neg h]; simp only [visible, List.find?_cons, this]

theorem visible_filter_ne (l : List (Pend w)) {r r' : Nat} (p : Nat) (d : BitVec w) (h : r' ≠ r) :
    visible (l.filter fun e => e.reg != r) r' p d = visible l r' p d := by
  unfold visible; rw [find_filter_ne _ h]

theorem visible_filter_self (l : List (Pend w)) (r p : Nat) (d : BitVec w) :
    visible (l.filter fun e => e.reg != r) r p d = d := by
  have : (l.filter fun e => e.reg != r).find?
      (fun e => e.reg == r && decide (e.at_ ≤ p)) = none := by
    simp only [List.find?_eq_none, List.mem_filter]
    intro e ⟨_, he⟩; simp_all
  simp [visible, this]

/-- `newer` keeps what a read of another register finds. -/
theorem visible_newer_ne (l : List (Pend w)) {r r' : Nat} (p q : Nat) (d : BitVec w) (h : r' ≠ r) :
    visible (newer r q l) r' p d = visible l r' p d := by
  induction l with
  | nil => rfl
  | cons e l ih =>
    by_cases he : e.reg = r
    · have hne : ¬ (e.reg = r' ∧ e.at_ ≤ p) := fun hh => h (hh.1.symm.trans he)
      rw [visible_cons, if_neg hne]
      by_cases hq : e.at_ ≤ q
      · simp only [newer, he, hq, if_true]; exact visible_filter_ne l p d h
      · simp only [newer, he, hq, if_true, if_false]; rw [visible_cons, if_neg hne, ih]
    · simp only [newer, he, if_false, visible_cons, ih]

/-- A read of the register at or past `q` finds a newer write, or what was visible at `q`. -/
theorem visible_newer (l : List (Pend w)) (r : Nat) {p q : Nat} (d : BitVec w) (h : q ≤ p) :
    visible (newer r q l) r p (visible l r q d) = visible l r p d := by
  induction l with
  | nil => rfl
  | cons e l ih =>
    by_cases he : e.reg = r
    · by_cases hq : e.at_ ≤ q
      · have hp : e.at_ ≤ p := Nat.le_trans hq h
        simp only [newer, he, hq, if_true, visible_filter_self, visible_cons, hp, and_self]
      · by_cases hp : e.at_ ≤ p
        · simp only [newer, he, hq, hp, if_true, if_false, visible_cons, and_self]
        · simp only [newer, he, hq, hp, if_true, if_false, visible_cons, and_false, ih]
    · simp only [newer, he, if_false, visible_cons, false_and, ih]

/-- 02 R45: the reads that follow a write of fixed latency. -/
theorem write_read (f : RegFile n w) (r : Nat) (v : BitVec w) (cur at_ next : Nat) (rep : Bool)
    (r' p : Nat) (h : r < n) (hc : cur ≤ next) (hp : next ≤ p) :
    (f.write r v cur at_ next rep).read r' p =
      if r' = r ∧ at_ ≤ p then v else f.read r' p := by
  simp only [write]
  split
  · rename_i ha
    rw [commit_read _ _ _ _ _ h]
    simp [Nat.le_trans ha hp]
  · rename_i ha
    rw [read_eq, read_eq, visible_cons]
    by_cases hr : r' = r
    · subst hr
      by_cases hp' : at_ ≤ p
      · simp [hp']
      · simp only [hp', and_false, if_false, get, vget_vset _ _ _ _ _ h, if_true]
        rw [read_eq, get]
        exact visible_newer f.pend r' _ (Nat.le_trans hc hp)
    · simp only [Ne.symm hr, hr, false_and, if_false, get, vget_vset_ne _ _ _ _ _ hr]
      rw [read_eq, get]
      exact visible_newer_ne f.pend p cur _ hr

end RegFile

theorem xIndex_lt (s : State) (r : XReg) : s.xIndex r.toNat < 40 := by
  simp only [State.xIndex]
  have := r.isLt
  split <;> omega

/-- A position of a unit that is not the vector sequencer is its own. -/
theorem pos_core {s : State} (h : s.who ≠ .vs) : s.pos = s.core.pos := by
  unfold State.pos; split <;> simp_all

theorem Tile.setCore_core (t : Tile) (u : UnitId) : t.setCore u (t.core u) = t := by
  cases u <;> rfl

theorem setX_self (s : State) : s.setX s.core.x = s :=
  congrArg (fun t => { s with tile := t }) (Tile.setCore_core s.tile s.who)

/-- A fixed-latency write of an x register is a new register file with the reads of 02 R45. -/
theorem writeX_wrote {s : State} (d : XReg) (v : Word) (lat : Nat) (st : StallCode) (pc : Word) :
    WroteX s ((s.writeX d v lat st).goTo pc (stallWait st)) d v lat pc (stallWait st) := by
  by_cases hd : d = 0
  · refine ⟨s.core.x, ?_, ?_⟩
    · simp [State.writeX, hd, setX_self]
    · intro r p _; simp [hd]
  · refine ⟨s.core.x.write (s.xIndex d.toNat) v s.pos (s.pos + lat) (s.pos + 1 + stallWait st) false,
      ?_, ?_⟩
    · rw [State.writeX, if_neg hd]; rfl
    · intro r p hp
      rw [RegFile.write_read _ _ _ _ _ _ _ _ _ (xIndex_lt s d) (by omega) hp]
      by_cases hr : r = s.xIndex d.toNat ∧ s.pos + lat ≤ p
      · rw [if_pos hr, if_pos ⟨hd, hr⟩]
      · rw [if_neg hr, if_neg fun h => hr h.2]

/-- A scoreboarded result is visible at every position that follows. -/
theorem commitX_wrote {s : State} (d : XReg) (v : Word) (pc : Word) (w : Nat) :
    WroteX s ((s.commitX d v).goTo pc w) d v 0 pc w := by
  by_cases hd : d = 0
  · refine ⟨s.core.x, ?_, ?_⟩
    · simp [State.commitX, hd, setX_self]
    · intro r p _; simp [hd]
  · refine ⟨s.core.x.commit (s.xIndex d.toNat) v, ?_, ?_⟩
    · rw [State.commitX, if_neg hd]; rfl
    · intro r p hp
      rw [RegFile.commit_read _ _ _ _ _ (xIndex_lt s d)]
      by_cases hr : r = s.xIndex d.toNat
      · rw [if_pos hr, if_pos ⟨hd, hr, by omega⟩]
      · rw [if_neg hr, if_neg fun h => hr h.2.1]

end Sys2Proof.Machine
end

