-- ==== Sys2Proof/Laws/State.lean ====
section
/-! SUPPORT. What the updates of the state change: one lemma for each field of each update, and
that the operations of a unit change its tile alone. -/
namespace Sys2Proof.Machine

/-! ### The tile in focus changed. -/

section
variable (s : State) (f : Tile → Tile)
@[simp] theorem onTile_cur : (s.onTile f).cur = s.cur := rfl
@[simp] theorem onTile_tile : (s.onTile f).tile = f s.tile := rfl
@[simp] theorem onTile_others : (s.onTile f).others = s.others := rfl
@[simp] theorem onTile_who : (s.onTile f).who = s.who := rfl
@[simp] theorem onTile_ir : (s.onTile f).ir = s.ir := rfl
@[simp] theorem onTile_exc : (s.onTile f).exc = s.exc := rfl
@[simp] theorem onTile_arg : (s.onTile f).arg = s.arg := rfl
@[simp] theorem onTile_agenda : (s.onTile f).agenda = s.agenda := rfl
@[simp] theorem onTile_choice : (s.onTile f).choice = s.choice := rfl
@[simp] theorem onTile_fresh : (s.onTile f).fresh = s.fresh := rfl
@[simp] theorem onTile_cc : (s.onTile f).cc = s.cc := rfl
@[simp] theorem onTile_gtc : (s.onTile f).gtc = s.gtc := rfl
@[simp] theorem onTile_device : (s.onTile f).device = s.device := rfl
@[simp] theorem onTile_peers : (s.onTile f).peers = s.peers := rfl
@[simp] theorem onTile_mem : (s.onTile f).mem = s.mem := rfl
@[simp] theorem onTile_tags : (s.onTile f).tags = s.tags := rfl
@[simp] theorem onTile_injected : (s.onTile f).injected = s.injected := rfl
@[simp] theorem onTile_poisoned : (s.onTile f).poisoned = s.poisoned := rfl
@[simp] theorem onTile_service : (s.onTile f).service = s.service := rfl
@[simp] theorem onTile_slicemap : (s.onTile f).slicemap = s.slicemap := rfl
@[simp] theorem onTile_bindings : (s.onTile f).bindings = s.bindings := rfl
@[simp] theorem onTile_lstat : (s.onTile f).lstat = s.lstat := rfl
@[simp] theorem onTile_contexts : (s.onTile f).contexts = s.contexts := rfl
@[simp] theorem onTile_killed : (s.onTile f).killed = s.killed := rfl
@[simp] theorem onTile_killedAt : (s.onTile f).killedAt = s.killedAt := rfl
@[simp] theorem onTile_parsing : (s.onTile f).parsing = s.parsing := rfl
@[simp] theorem onTile_dispReads : (s.onTile f).dispReads = s.dispReads := rfl
@[simp] theorem onTile_banks : (s.onTile f).banks = s.banks := rfl
@[simp] theorem onTile_resetvec : (s.onTile f).resetvec = s.resetvec := rfl
@[simp] theorem onTile_preq : (s.onTile f).preq = s.preq := rfl
@[simp] theorem onTile_clusterTlb : (s.onTile f).clusterTlb = s.clusterTlb := rfl
@[simp] theorem onTile_misses : (s.onTile f).misses = s.misses := rfl
@[simp] theorem onTile_images : (s.onTile f).images = s.images := rfl
@[simp] theorem onTile_turns : (s.onTile f).turns = s.turns := rfl
@[simp] theorem onTile_reclaims : (s.onTile f).reclaims = s.reclaims := rfl
@[simp] theorem onTile_areas : (s.onTile f).areas = s.areas := rfl
@[simp] theorem onTile_pins : (s.onTile f).pins = s.pins := rfl
@[simp] theorem onTile_compacts : (s.onTile f).compacts = s.compacts := rfl
@[simp] theorem onTile_nextCompact : (s.onTile f).nextCompact = s.nextCompact := rfl
@[simp] theorem onTile_domains : (s.onTile f).domains = s.domains := rfl
@[simp] theorem onTile_nextLid : (s.onTile f).nextLid = s.nextLid := rfl
@[simp] theorem onTile_stamp : (s.onTile f).stamp = s.stamp := rfl
@[simp] theorem onTile_launches : (s.onTile f).launches = s.launches := rfl
@[simp] theorem onTile_gangs : (s.onTile f).gangs = s.gangs := rfl
@[simp] theorem onTile_heads : (s.onTile f).heads = s.heads := rfl
@[simp] theorem onTile_placed : (s.onTile f).placed = s.placed := rfl
@[simp] theorem onTile_domainGangs : (s.onTile f).domainGangs = s.domainGangs := rfl
@[simp] theorem onTile_graphs : (s.onTile f).graphs = s.graphs := rfl
@[simp] theorem onTile_handles : (s.onTile f).handles = s.handles := rfl
@[simp] theorem onTile_mailboxes : (s.onTile f).mailboxes = s.mailboxes := rfl
@[simp] theorem onTile_ports : (s.onTile f).ports = s.ports := rfl
@[simp] theorem onTile_links : (s.onTile f).links = s.links := rfl
@[simp] theorem onTile_boxes : (s.onTile f).boxes = s.boxes := rfl
@[simp] theorem onTile_hostBias : (s.onTile f).hostBias = s.hostBias := rfl
@[simp] theorem onTile_snoop : (s.onTile f).snoop = s.snoop := rfl
@[simp] theorem onTile_snoopClean : (s.onTile f).snoopClean = s.snoopClean := rfl
@[simp] theorem onTile_farOwned : (s.onTile f).farOwned = s.farOwned := rfl
@[simp] theorem onTile_reportsHeld : (s.onTile f).reportsHeld = s.reportsHeld := rfl
@[simp] theorem onTile_appCache : (s.onTile f).appCache = s.appCache := rfl
@[simp] theorem onTile_flips : (s.onTile f).flips = s.flips := rfl
@[simp] theorem onTile_biascmd : (s.onTile f).biascmd = s.biascmd := rfl
@[simp] theorem onTile_biasErr : (s.onTile f).biasErr = s.biasErr := rfl
@[simp] theorem onTile_biasDone : (s.onTile f).biasDone = s.biasDone := rfl
@[simp] theorem onTile_msix : (s.onTile f).msix = s.msix := rfl
@[simp] theorem onTile_hostData : (s.onTile f).hostData = s.hostData := rfl
@[simp] theorem onTile_hostError : (s.onTile f).hostError = s.hostError := rfl
@[simp] theorem onTile_cores : (s.onTile f).cores = s.cores := rfl
@[simp] theorem onTile_reservations : (s.onTile f).reservations = s.reservations := rfl
@[simp] theorem onTile_appRegs : (s.onTile f).appRegs = s.appRegs := rfl
@[simp] theorem onTile_mgmt : (s.onTile f).mgmt = s.mgmt := rfl
end

/-! ### A step of another agent is next. -/

section
variable (s : State) (i : Instr) (a : EventArg)
@[simp] theorem post_cur : (s.post i a).cur = s.cur := rfl
@[simp] theorem post_tile : (s.post i a).tile = s.tile := rfl
@[simp] theorem post_others : (s.post i a).others = s.others := rfl
@[simp] theorem post_who : (s.post i a).who = s.who := rfl
@[simp] theorem post_ir : (s.post i a).ir = s.ir := rfl
@[simp] theorem post_exc : (s.post i a).exc = s.exc := rfl
@[simp] theorem post_arg : (s.post i a).arg = s.arg := rfl
@[simp] theorem post_agenda : (s.post i a).agenda = .event i a :: s.agenda := rfl
@[simp] theorem post_choice : (s.post i a).choice = s.choice := rfl
@[simp] theorem post_fresh : (s.post i a).fresh = s.fresh := rfl
@[simp] theorem post_cc : (s.post i a).cc = s.cc := rfl
@[simp] theorem post_gtc : (s.post i a).gtc = s.gtc := rfl
@[simp] theorem post_device : (s.post i a).device = s.device := rfl
@[simp] theorem post_peers : (s.post i a).peers = s.peers := rfl
@[simp] theorem post_mem : (s.post i a).mem = s.mem := rfl
@[simp] theorem post_tags : (s.post i a).tags = s.tags := rfl
@[simp] theorem post_injected : (s.post i a).injected = s.injected := rfl
@[simp] theorem post_poisoned : (s.post i a).poisoned = s.poisoned := rfl
@[simp] theorem post_service : (s.post i a).service = s.service := rfl
@[simp] theorem post_slicemap : (s.post i a).slicemap = s.slicemap := rfl
@[simp] theorem post_bindings : (s.post i a).bindings = s.bindings := rfl
@[simp] theorem post_lstat : (s.post i a).lstat = s.lstat := rfl
@[simp] theorem post_contexts : (s.post i a).contexts = s.contexts := rfl
@[simp] theorem post_killed : (s.post i a).killed = s.killed := rfl
@[simp] theorem post_killedAt : (s.post i a).killedAt = s.killedAt := rfl
@[simp] theorem post_parsing : (s.post i a).parsing = s.parsing := rfl
@[simp] theorem post_dispReads : (s.post i a).dispReads = s.dispReads := rfl
@[simp] theorem post_banks : (s.post i a).banks = s.banks := rfl
@[simp] theorem post_resetvec : (s.post i a).resetvec = s.resetvec := rfl
@[simp] theorem post_preq : (s.post i a).preq = s.preq := rfl
@[simp] theorem post_clusterTlb : (s.post i a).clusterTlb = s.clusterTlb := rfl
@[simp] theorem post_misses : (s.post i a).misses = s.misses := rfl
@[simp] theorem post_images : (s.post i a).images = s.images := rfl
@[simp] theorem post_turns : (s.post i a).turns = s.turns := rfl
@[simp] theorem post_reclaims : (s.post i a).reclaims = s.reclaims := rfl
@[simp] theorem post_areas : (s.post i a).areas = s.areas := rfl
@[simp] theorem post_pins : (s.post i a).pins = s.pins := rfl
@[simp] theorem post_compacts : (s.post i a).compacts = s.compacts := rfl
@[simp] theorem post_nextCompact : (s.post i a).nextCompact = s.nextCompact := rfl
@[simp] theorem post_domains : (s.post i a).domains = s.domains := rfl
@[simp] theorem post_nextLid : (s.post i a).nextLid = s.nextLid := rfl
@[simp] theorem post_stamp : (s.post i a).stamp = s.stamp := rfl
@[simp] theorem post_launches : (s.post i a).launches = s.launches := rfl
@[simp] theorem post_gangs : (s.post i a).gangs = s.gangs := rfl
@[simp] theorem post_heads : (s.post i a).heads = s.heads := rfl
@[simp] theorem post_placed : (s.post i a).placed = s.placed := rfl
@[simp] theorem post_domainGangs : (s.post i a).domainGangs = s.domainGangs := rfl
@[simp] theorem post_graphs : (s.post i a).graphs = s.graphs := rfl
@[simp] theorem post_handles : (s.post i a).handles = s.handles := rfl
@[simp] theorem post_mailboxes : (s.post i a).mailboxes = s.mailboxes := rfl
@[simp] theorem post_ports : (s.post i a).ports = s.ports := rfl
@[simp] theorem post_links : (s.post i a).links = s.links := rfl
@[simp] theorem post_boxes : (s.post i a).boxes = s.boxes := rfl
@[simp] theorem post_hostBias : (s.post i a).hostBias = s.hostBias := rfl
@[simp] theorem post_snoop : (s.post i a).snoop = s.snoop := rfl
@[simp] theorem post_snoopClean : (s.post i a).snoopClean = s.snoopClean := rfl
@[simp] theorem post_farOwned : (s.post i a).farOwned = s.farOwned := rfl
@[simp] theorem post_reportsHeld : (s.post i a).reportsHeld = s.reportsHeld := rfl
@[simp] theorem post_appCache : (s.post i a).appCache = s.appCache := rfl
@[simp] theorem post_flips : (s.post i a).flips = s.flips := rfl
@[simp] theorem post_biascmd : (s.post i a).biascmd = s.biascmd := rfl
@[simp] theorem post_biasErr : (s.post i a).biasErr = s.biasErr := rfl
@[simp] theorem post_biasDone : (s.post i a).biasDone = s.biasDone := rfl
@[simp] theorem post_msix : (s.post i a).msix = s.msix := rfl
@[simp] theorem post_hostData : (s.post i a).hostData = s.hostData := rfl
@[simp] theorem post_hostError : (s.post i a).hostError = s.hostError := rfl
@[simp] theorem post_cores : (s.post i a).cores = s.cores := rfl
@[simp] theorem post_reservations : (s.post i a).reservations = s.reservations := rfl
@[simp] theorem post_appRegs : (s.post i a).appRegs = s.appRegs := rfl
@[simp] theorem post_mgmt : (s.post i a).mgmt = s.mgmt := rfl
end

/-! ### A request has been numbered. -/

section
variable (s : State)
@[simp] theorem numbered_cur : (s.numbered).cur = s.cur := rfl
@[simp] theorem numbered_tile : (s.numbered).tile = s.tile := rfl
@[simp] theorem numbered_others : (s.numbered).others = s.others := rfl
@[simp] theorem numbered_who : (s.numbered).who = s.who := rfl
@[simp] theorem numbered_ir : (s.numbered).ir = s.ir := rfl
@[simp] theorem numbered_exc : (s.numbered).exc = s.exc := rfl
@[simp] theorem numbered_arg : (s.numbered).arg = s.arg := rfl
@[simp] theorem numbered_agenda : (s.numbered).agenda = s.agenda := rfl
@[simp] theorem numbered_choice : (s.numbered).choice = s.choice := rfl
@[simp] theorem numbered_fresh : (s.numbered).fresh = s.fresh + 1 := rfl
@[simp] theorem numbered_cc : (s.numbered).cc = s.cc := rfl
@[simp] theorem numbered_gtc : (s.numbered).gtc = s.gtc := rfl
@[simp] theorem numbered_device : (s.numbered).device = s.device := rfl
@[simp] theorem numbered_peers : (s.numbered).peers = s.peers := rfl
@[simp] theorem numbered_mem : (s.numbered).mem = s.mem := rfl
@[simp] theorem numbered_tags : (s.numbered).tags = s.tags := rfl
@[simp] theorem numbered_injected : (s.numbered).injected = s.injected := rfl
@[simp] theorem numbered_poisoned : (s.numbered).poisoned = s.poisoned := rfl
@[simp] theorem numbered_service : (s.numbered).service = s.service := rfl
@[simp] theorem numbered_slicemap : (s.numbered).slicemap = s.slicemap := rfl
@[simp] theorem numbered_bindings : (s.numbered).bindings = s.bindings := rfl
@[simp] theorem numbered_lstat : (s.numbered).lstat = s.lstat := rfl
@[simp] theorem numbered_contexts : (s.numbered).contexts = s.contexts := rfl
@[simp] theorem numbered_killed : (s.numbered).killed = s.killed := rfl
@[simp] theorem numbered_killedAt : (s.numbered).killedAt = s.killedAt := rfl
@[simp] theorem numbered_parsing : (s.numbered).parsing = s.parsing := rfl
@[simp] theorem numbered_dispReads : (s.numbered).dispReads = s.dispReads := rfl
@[simp] theorem numbered_banks : (s.numbered).banks = s.banks := rfl
@[simp] theorem numbered_resetvec : (s.numbered).resetvec = s.resetvec := rfl
@[simp] theorem numbered_preq : (s.numbered).preq = s.preq := rfl
@[simp] theorem numbered_clusterTlb : (s.numbered).clusterTlb = s.clusterTlb := rfl
@[simp] theorem numbered_misses : (s.numbered).misses = s.misses := rfl
@[simp] theorem numbered_images : (s.numbered).images = s.images := rfl
@[simp] theorem numbered_turns : (s.numbered).turns = s.turns := rfl
@[simp] theorem numbered_reclaims : (s.numbered).reclaims = s.reclaims := rfl
@[simp] theorem numbered_areas : (s.numbered).areas = s.areas := rfl
@[simp] theorem numbered_pins : (s.numbered).pins = s.pins := rfl
@[simp] theorem numbered_compacts : (s.numbered).compacts = s.compacts := rfl
@[simp] theorem numbered_nextCompact : (s.numbered).nextCompact = s.nextCompact := rfl
@[simp] theorem numbered_domains : (s.numbered).domains = s.domains := rfl
@[simp] theorem numbered_nextLid : (s.numbered).nextLid = s.nextLid := rfl
@[simp] theorem numbered_stamp : (s.numbered).stamp = s.stamp := rfl
@[simp] theorem numbered_launches : (s.numbered).launches = s.launches := rfl
@[simp] theorem numbered_gangs : (s.numbered).gangs = s.gangs := rfl
@[simp] theorem numbered_heads : (s.numbered).heads = s.heads := rfl
@[simp] theorem numbered_placed : (s.numbered).placed = s.placed := rfl
@[simp] theorem numbered_domainGangs : (s.numbered).domainGangs = s.domainGangs := rfl
@[simp] theorem numbered_graphs : (s.numbered).graphs = s.graphs := rfl
@[simp] theorem numbered_handles : (s.numbered).handles = s.handles := rfl
@[simp] theorem numbered_mailboxes : (s.numbered).mailboxes = s.mailboxes := rfl
@[simp] theorem numbered_ports : (s.numbered).ports = s.ports := rfl
@[simp] theorem numbered_links : (s.numbered).links = s.links := rfl
@[simp] theorem numbered_boxes : (s.numbered).boxes = s.boxes := rfl
@[simp] theorem numbered_hostBias : (s.numbered).hostBias = s.hostBias := rfl
@[simp] theorem numbered_snoop : (s.numbered).snoop = s.snoop := rfl
@[simp] theorem numbered_snoopClean : (s.numbered).snoopClean = s.snoopClean := rfl
@[simp] theorem numbered_farOwned : (s.numbered).farOwned = s.farOwned := rfl
@[simp] theorem numbered_reportsHeld : (s.numbered).reportsHeld = s.reportsHeld := rfl
@[simp] theorem numbered_appCache : (s.numbered).appCache = s.appCache := rfl
@[simp] theorem numbered_flips : (s.numbered).flips = s.flips := rfl
@[simp] theorem numbered_biascmd : (s.numbered).biascmd = s.biascmd := rfl
@[simp] theorem numbered_biasErr : (s.numbered).biasErr = s.biasErr := rfl
@[simp] theorem numbered_biasDone : (s.numbered).biasDone = s.biasDone := rfl
@[simp] theorem numbered_msix : (s.numbered).msix = s.msix := rfl
@[simp] theorem numbered_hostData : (s.numbered).hostData = s.hostData := rfl
@[simp] theorem numbered_hostError : (s.numbered).hostError = s.hostError := rfl
@[simp] theorem numbered_cores : (s.numbered).cores = s.cores := rfl
@[simp] theorem numbered_reservations : (s.numbered).reservations = s.reservations := rfl
@[simp] theorem numbered_appRegs : (s.numbered).appRegs = s.appRegs := rfl
@[simp] theorem numbered_mgmt : (s.numbered).mgmt = s.mgmt := rfl
end

/-! ### An owner tag. -/

section
variable (s : State) (k c : Nat)
@[simp] theorem setTag_cur : (s.setTag k c).cur = s.cur := rfl
@[simp] theorem setTag_tile : (s.setTag k c).tile = s.tile := rfl
@[simp] theorem setTag_others : (s.setTag k c).others = s.others := rfl
@[simp] theorem setTag_who : (s.setTag k c).who = s.who := rfl
@[simp] theorem setTag_ir : (s.setTag k c).ir = s.ir := rfl
@[simp] theorem setTag_exc : (s.setTag k c).exc = s.exc := rfl
@[simp] theorem setTag_arg : (s.setTag k c).arg = s.arg := rfl
@[simp] theorem setTag_agenda : (s.setTag k c).agenda = s.agenda := rfl
@[simp] theorem setTag_choice : (s.setTag k c).choice = s.choice := rfl
@[simp] theorem setTag_fresh : (s.setTag k c).fresh = s.fresh := rfl
@[simp] theorem setTag_cc : (s.setTag k c).cc = s.cc := rfl
@[simp] theorem setTag_gtc : (s.setTag k c).gtc = s.gtc := rfl
@[simp] theorem setTag_device : (s.setTag k c).device = s.device := rfl
@[simp] theorem setTag_peers : (s.setTag k c).peers = s.peers := rfl
@[simp] theorem setTag_mem : (s.setTag k c).mem = s.mem := rfl
@[simp] theorem setTag_tags : (s.setTag k c).tags = putKey s.tags k c := rfl
@[simp] theorem setTag_injected : (s.setTag k c).injected = s.injected := rfl
@[simp] theorem setTag_poisoned : (s.setTag k c).poisoned = s.poisoned := rfl
@[simp] theorem setTag_service : (s.setTag k c).service = s.service := rfl
@[simp] theorem setTag_slicemap : (s.setTag k c).slicemap = s.slicemap := rfl
@[simp] theorem setTag_bindings : (s.setTag k c).bindings = s.bindings := rfl
@[simp] theorem setTag_lstat : (s.setTag k c).lstat = s.lstat := rfl
@[simp] theorem setTag_contexts : (s.setTag k c).contexts = s.contexts := rfl
@[simp] theorem setTag_killed : (s.setTag k c).killed = s.killed := rfl
@[simp] theorem setTag_killedAt : (s.setTag k c).killedAt = s.killedAt := rfl
@[simp] theorem setTag_parsing : (s.setTag k c).parsing = s.parsing := rfl
@[simp] theorem setTag_dispReads : (s.setTag k c).dispReads = s.dispReads := rfl
@[simp] theorem setTag_banks : (s.setTag k c).banks = s.banks := rfl
@[simp] theorem setTag_resetvec : (s.setTag k c).resetvec = s.resetvec := rfl
@[simp] theorem setTag_preq : (s.setTag k c).preq = s.preq := rfl
@[simp] theorem setTag_clusterTlb : (s.setTag k c).clusterTlb = s.clusterTlb := rfl
@[simp] theorem setTag_misses : (s.setTag k c).misses = s.misses := rfl
@[simp] theorem setTag_images : (s.setTag k c).images = s.images := rfl
@[simp] theorem setTag_turns : (s.setTag k c).turns = s.turns := rfl
@[simp] theorem setTag_reclaims : (s.setTag k c).reclaims = s.reclaims := rfl
@[simp] theorem setTag_areas : (s.setTag k c).areas = s.areas := rfl
@[simp] theorem setTag_pins : (s.setTag k c).pins = s.pins := rfl
@[simp] theorem setTag_compacts : (s.setTag k c).compacts = s.compacts := rfl
@[simp] theorem setTag_nextCompact : (s.setTag k c).nextCompact = s.nextCompact := rfl
@[simp] theorem setTag_domains : (s.setTag k c).domains = s.domains := rfl
@[simp] theorem setTag_nextLid : (s.setTag k c).nextLid = s.nextLid := rfl
@[simp] theorem setTag_stamp : (s.setTag k c).stamp = s.stamp := rfl
@[simp] theorem setTag_launches : (s.setTag k c).launches = s.launches := rfl
@[simp] theorem setTag_gangs : (s.setTag k c).gangs = s.gangs := rfl
@[simp] theorem setTag_heads : (s.setTag k c).heads = s.heads := rfl
@[simp] theorem setTag_placed : (s.setTag k c).placed = s.placed := rfl
@[simp] theorem setTag_domainGangs : (s.setTag k c).domainGangs = s.domainGangs := rfl
@[simp] theorem setTag_graphs : (s.setTag k c).graphs = s.graphs := rfl
@[simp] theorem setTag_handles : (s.setTag k c).handles = s.handles := rfl
@[simp] theorem setTag_mailboxes : (s.setTag k c).mailboxes = s.mailboxes := rfl
@[simp] theorem setTag_ports : (s.setTag k c).ports = s.ports := rfl
@[simp] theorem setTag_links : (s.setTag k c).links = s.links := rfl
@[simp] theorem setTag_boxes : (s.setTag k c).boxes = s.boxes := rfl
@[simp] theorem setTag_hostBias : (s.setTag k c).hostBias = s.hostBias := rfl
@[simp] theorem setTag_snoop : (s.setTag k c).snoop = s.snoop := rfl
@[simp] theorem setTag_snoopClean : (s.setTag k c).snoopClean = s.snoopClean := rfl
@[simp] theorem setTag_farOwned : (s.setTag k c).farOwned = s.farOwned := rfl
@[simp] theorem setTag_reportsHeld : (s.setTag k c).reportsHeld = s.reportsHeld := rfl
@[simp] theorem setTag_appCache : (s.setTag k c).appCache = s.appCache := rfl
@[simp] theorem setTag_flips : (s.setTag k c).flips = s.flips := rfl
@[simp] theorem setTag_biascmd : (s.setTag k c).biascmd = s.biascmd := rfl
@[simp] theorem setTag_biasErr : (s.setTag k c).biasErr = s.biasErr := rfl
@[simp] theorem setTag_biasDone : (s.setTag k c).biasDone = s.biasDone := rfl
@[simp] theorem setTag_msix : (s.setTag k c).msix = s.msix := rfl
@[simp] theorem setTag_hostData : (s.setTag k c).hostData = s.hostData := rfl
@[simp] theorem setTag_hostError : (s.setTag k c).hostError = s.hostError := rfl
@[simp] theorem setTag_cores : (s.setTag k c).cores = s.cores := rfl
@[simp] theorem setTag_reservations : (s.setTag k c).reservations = s.reservations := rfl
@[simp] theorem setTag_appRegs : (s.setTag k c).appRegs = s.appRegs := rfl
@[simp] theorem setTag_mgmt : (s.setTag k c).mgmt = s.mgmt := rfl
end

/-! ### A sector whose data are lost. -/

section
variable (s : State) (k c : Nat)
@[simp] theorem poison_cur : (s.poison k c).cur = s.cur := rfl
@[simp] theorem poison_tile : (s.poison k c).tile = s.tile := rfl
@[simp] theorem poison_others : (s.poison k c).others = s.others := rfl
@[simp] theorem poison_who : (s.poison k c).who = s.who := rfl
@[simp] theorem poison_ir : (s.poison k c).ir = s.ir := rfl
@[simp] theorem poison_exc : (s.poison k c).exc = s.exc := rfl
@[simp] theorem poison_arg : (s.poison k c).arg = s.arg := rfl
@[simp] theorem poison_agenda : (s.poison k c).agenda = s.agenda := rfl
@[simp] theorem poison_choice : (s.poison k c).choice = s.choice := rfl
@[simp] theorem poison_fresh : (s.poison k c).fresh = s.fresh := rfl
@[simp] theorem poison_cc : (s.poison k c).cc = s.cc := rfl
@[simp] theorem poison_gtc : (s.poison k c).gtc = s.gtc := rfl
@[simp] theorem poison_device : (s.poison k c).device = s.device := rfl
@[simp] theorem poison_peers : (s.poison k c).peers = s.peers := rfl
@[simp] theorem poison_mem : (s.poison k c).mem = s.mem := rfl
@[simp] theorem poison_injected : (s.poison k c).injected = s.injected := rfl
@[simp] theorem poison_tags : (s.poison k c).tags = s.tags := rfl
@[simp] theorem poison_service : (s.poison k c).service = s.service := rfl
@[simp] theorem poison_slicemap : (s.poison k c).slicemap = s.slicemap := rfl
@[simp] theorem poison_bindings : (s.poison k c).bindings = s.bindings := rfl
@[simp] theorem poison_lstat : (s.poison k c).lstat = s.lstat := rfl
@[simp] theorem poison_contexts : (s.poison k c).contexts = s.contexts := rfl
@[simp] theorem poison_killed : (s.poison k c).killed = s.killed := rfl
@[simp] theorem poison_killedAt : (s.poison k c).killedAt = s.killedAt := rfl
@[simp] theorem poison_parsing : (s.poison k c).parsing = s.parsing := rfl
@[simp] theorem poison_dispReads : (s.poison k c).dispReads = s.dispReads := rfl
@[simp] theorem poison_banks : (s.poison k c).banks = s.banks := rfl
@[simp] theorem poison_resetvec : (s.poison k c).resetvec = s.resetvec := rfl
@[simp] theorem poison_preq : (s.poison k c).preq = s.preq := rfl
@[simp] theorem poison_clusterTlb : (s.poison k c).clusterTlb = s.clusterTlb := rfl
@[simp] theorem poison_misses : (s.poison k c).misses = s.misses := rfl
@[simp] theorem poison_images : (s.poison k c).images = s.images := rfl
@[simp] theorem poison_turns : (s.poison k c).turns = s.turns := rfl
@[simp] theorem poison_reclaims : (s.poison k c).reclaims = s.reclaims := rfl
@[simp] theorem poison_areas : (s.poison k c).areas = s.areas := rfl
@[simp] theorem poison_pins : (s.poison k c).pins = s.pins := rfl
@[simp] theorem poison_compacts : (s.poison k c).compacts = s.compacts := rfl
@[simp] theorem poison_nextCompact : (s.poison k c).nextCompact = s.nextCompact := rfl
@[simp] theorem poison_domains : (s.poison k c).domains = s.domains := rfl
@[simp] theorem poison_nextLid : (s.poison k c).nextLid = s.nextLid := rfl
@[simp] theorem poison_stamp : (s.poison k c).stamp = s.stamp := rfl
@[simp] theorem poison_launches : (s.poison k c).launches = s.launches := rfl
@[simp] theorem poison_gangs : (s.poison k c).gangs = s.gangs := rfl
@[simp] theorem poison_heads : (s.poison k c).heads = s.heads := rfl
@[simp] theorem poison_placed : (s.poison k c).placed = s.placed := rfl
@[simp] theorem poison_domainGangs : (s.poison k c).domainGangs = s.domainGangs := rfl
@[simp] theorem poison_graphs : (s.poison k c).graphs = s.graphs := rfl
@[simp] theorem poison_handles : (s.poison k c).handles = s.handles := rfl
@[simp] theorem poison_mailboxes : (s.poison k c).mailboxes = s.mailboxes := rfl
@[simp] theorem poison_ports : (s.poison k c).ports = s.ports := rfl
@[simp] theorem poison_links : (s.poison k c).links = s.links := rfl
@[simp] theorem poison_boxes : (s.poison k c).boxes = s.boxes := rfl
@[simp] theorem poison_hostBias : (s.poison k c).hostBias = s.hostBias := rfl
@[simp] theorem poison_snoop : (s.poison k c).snoop = s.snoop := rfl
@[simp] theorem poison_snoopClean : (s.poison k c).snoopClean = s.snoopClean := rfl
@[simp] theorem poison_farOwned : (s.poison k c).farOwned = s.farOwned := rfl
@[simp] theorem poison_reportsHeld : (s.poison k c).reportsHeld = s.reportsHeld := rfl
@[simp] theorem poison_appCache : (s.poison k c).appCache = s.appCache := rfl
@[simp] theorem poison_flips : (s.poison k c).flips = s.flips := rfl
@[simp] theorem poison_biascmd : (s.poison k c).biascmd = s.biascmd := rfl
@[simp] theorem poison_biasErr : (s.poison k c).biasErr = s.biasErr := rfl
@[simp] theorem poison_biasDone : (s.poison k c).biasDone = s.biasDone := rfl
@[simp] theorem poison_msix : (s.poison k c).msix = s.msix := rfl
@[simp] theorem poison_hostData : (s.poison k c).hostData = s.hostData := rfl
@[simp] theorem poison_hostError : (s.poison k c).hostError = s.hostError := rfl
@[simp] theorem poison_cores : (s.poison k c).cores = s.cores := rfl
@[simp] theorem poison_reservations : (s.poison k c).reservations = s.reservations := rfl
@[simp] theorem poison_appRegs : (s.poison k c).appRegs = s.appRegs := rfl
@[simp] theorem poison_mgmt : (s.poison k c).mgmt = s.mgmt := rfl
end

/-! ### Reservations of a line broken. -/

section
variable (s : State) (line : Nat)
@[simp] theorem breakRes_cur : (s.breakRes line).cur = s.cur := rfl
@[simp] theorem breakRes_tile : (s.breakRes line).tile = s.tile := rfl
@[simp] theorem breakRes_others : (s.breakRes line).others = s.others := rfl
@[simp] theorem breakRes_who : (s.breakRes line).who = s.who := rfl
@[simp] theorem breakRes_ir : (s.breakRes line).ir = s.ir := rfl
@[simp] theorem breakRes_exc : (s.breakRes line).exc = s.exc := rfl
@[simp] theorem breakRes_arg : (s.breakRes line).arg = s.arg := rfl
@[simp] theorem breakRes_agenda : (s.breakRes line).agenda = s.agenda := rfl
@[simp] theorem breakRes_choice : (s.breakRes line).choice = s.choice := rfl
@[simp] theorem breakRes_fresh : (s.breakRes line).fresh = s.fresh := rfl
@[simp] theorem breakRes_cc : (s.breakRes line).cc = s.cc := rfl
@[simp] theorem breakRes_gtc : (s.breakRes line).gtc = s.gtc := rfl
@[simp] theorem breakRes_device : (s.breakRes line).device = s.device := rfl
@[simp] theorem breakRes_peers : (s.breakRes line).peers = s.peers := rfl
@[simp] theorem breakRes_mem : (s.breakRes line).mem = s.mem := rfl
@[simp] theorem breakRes_tags : (s.breakRes line).tags = s.tags := rfl
@[simp] theorem breakRes_injected : (s.breakRes line).injected = s.injected := rfl
@[simp] theorem breakRes_poisoned : (s.breakRes line).poisoned = s.poisoned := rfl
@[simp] theorem breakRes_service : (s.breakRes line).service = s.service := rfl
@[simp] theorem breakRes_slicemap : (s.breakRes line).slicemap = s.slicemap := rfl
@[simp] theorem breakRes_bindings : (s.breakRes line).bindings = s.bindings := rfl
@[simp] theorem breakRes_lstat : (s.breakRes line).lstat = s.lstat := rfl
@[simp] theorem breakRes_contexts : (s.breakRes line).contexts = s.contexts := rfl
@[simp] theorem breakRes_killed : (s.breakRes line).killed = s.killed := rfl
@[simp] theorem breakRes_killedAt : (s.breakRes line).killedAt = s.killedAt := rfl
@[simp] theorem breakRes_parsing : (s.breakRes line).parsing = s.parsing := rfl
@[simp] theorem breakRes_dispReads : (s.breakRes line).dispReads = s.dispReads := rfl
@[simp] theorem breakRes_banks : (s.breakRes line).banks = s.banks := rfl
@[simp] theorem breakRes_resetvec : (s.breakRes line).resetvec = s.resetvec := rfl
@[simp] theorem breakRes_preq : (s.breakRes line).preq = s.preq := rfl
@[simp] theorem breakRes_clusterTlb : (s.breakRes line).clusterTlb = s.clusterTlb := rfl
@[simp] theorem breakRes_misses : (s.breakRes line).misses = s.misses := rfl
@[simp] theorem breakRes_images : (s.breakRes line).images = s.images := rfl
@[simp] theorem breakRes_turns : (s.breakRes line).turns = s.turns := rfl
@[simp] theorem breakRes_reclaims : (s.breakRes line).reclaims = s.reclaims := rfl
@[simp] theorem breakRes_areas : (s.breakRes line).areas = s.areas := rfl
@[simp] theorem breakRes_pins : (s.breakRes line).pins = s.pins := rfl
@[simp] theorem breakRes_compacts : (s.breakRes line).compacts = s.compacts := rfl
@[simp] theorem breakRes_nextCompact : (s.breakRes line).nextCompact = s.nextCompact := rfl
@[simp] theorem breakRes_domains : (s.breakRes line).domains = s.domains := rfl
@[simp] theorem breakRes_nextLid : (s.breakRes line).nextLid = s.nextLid := rfl
@[simp] theorem breakRes_stamp : (s.breakRes line).stamp = s.stamp := rfl
@[simp] theorem breakRes_launches : (s.breakRes line).launches = s.launches := rfl
@[simp] theorem breakRes_gangs : (s.breakRes line).gangs = s.gangs := rfl
@[simp] theorem breakRes_heads : (s.breakRes line).heads = s.heads := rfl
@[simp] theorem breakRes_placed : (s.breakRes line).placed = s.placed := rfl
@[simp] theorem breakRes_domainGangs : (s.breakRes line).domainGangs = s.domainGangs := rfl
@[simp] theorem breakRes_graphs : (s.breakRes line).graphs = s.graphs := rfl
@[simp] theorem breakRes_handles : (s.breakRes line).handles = s.handles := rfl
@[simp] theorem breakRes_mailboxes : (s.breakRes line).mailboxes = s.mailboxes := rfl
@[simp] theorem breakRes_ports : (s.breakRes line).ports = s.ports := rfl
@[simp] theorem breakRes_links : (s.breakRes line).links = s.links := rfl
@[simp] theorem breakRes_boxes : (s.breakRes line).boxes = s.boxes := rfl
@[simp] theorem breakRes_hostBias : (s.breakRes line).hostBias = s.hostBias := rfl
@[simp] theorem breakRes_snoop : (s.breakRes line).snoop = s.snoop := rfl
@[simp] theorem breakRes_snoopClean : (s.breakRes line).snoopClean = s.snoopClean := rfl
@[simp] theorem breakRes_farOwned : (s.breakRes line).farOwned = s.farOwned := rfl
@[simp] theorem breakRes_reportsHeld : (s.breakRes line).reportsHeld = s.reportsHeld := rfl
@[simp] theorem breakRes_appCache : (s.breakRes line).appCache = s.appCache := rfl
@[simp] theorem breakRes_flips : (s.breakRes line).flips = s.flips := rfl
@[simp] theorem breakRes_biascmd : (s.breakRes line).biascmd = s.biascmd := rfl
@[simp] theorem breakRes_biasErr : (s.breakRes line).biasErr = s.biasErr := rfl
@[simp] theorem breakRes_biasDone : (s.breakRes line).biasDone = s.biasDone := rfl
@[simp] theorem breakRes_msix : (s.breakRes line).msix = s.msix := rfl
@[simp] theorem breakRes_hostData : (s.breakRes line).hostData = s.hostData := rfl
@[simp] theorem breakRes_hostError : (s.breakRes line).hostError = s.hostError := rfl
@[simp] theorem breakRes_cores : (s.breakRes line).cores = s.cores := rfl
@[simp] theorem breakRes_reservations : (s.breakRes line).reservations =
  s.reservations.filter fun p => p.2 != line := rfl
@[simp] theorem breakRes_appRegs : (s.breakRes line).appRegs = s.appRegs := rfl
@[simp] theorem breakRes_mgmt : (s.breakRes line).mgmt = s.mgmt := rfl
end

/-! ### A record of an error bank. -/

section
variable (s : State) (b : BankRecord)
@[simp] theorem setBank_cur : (s.setBank b).cur = s.cur := rfl
@[simp] theorem setBank_tile : (s.setBank b).tile = s.tile := rfl
@[simp] theorem setBank_others : (s.setBank b).others = s.others := rfl
@[simp] theorem setBank_who : (s.setBank b).who = s.who := rfl
@[simp] theorem setBank_ir : (s.setBank b).ir = s.ir := rfl
@[simp] theorem setBank_exc : (s.setBank b).exc = s.exc := rfl
@[simp] theorem setBank_arg : (s.setBank b).arg = s.arg := rfl
@[simp] theorem setBank_agenda : (s.setBank b).agenda = s.agenda := rfl
@[simp] theorem setBank_choice : (s.setBank b).choice = s.choice := rfl
@[simp] theorem setBank_fresh : (s.setBank b).fresh = s.fresh := rfl
@[simp] theorem setBank_cc : (s.setBank b).cc = s.cc := rfl
@[simp] theorem setBank_gtc : (s.setBank b).gtc = s.gtc := rfl
@[simp] theorem setBank_device : (s.setBank b).device = s.device := rfl
@[simp] theorem setBank_peers : (s.setBank b).peers = s.peers := rfl
@[simp] theorem setBank_mem : (s.setBank b).mem = s.mem := rfl
@[simp] theorem setBank_tags : (s.setBank b).tags = s.tags := rfl
@[simp] theorem setBank_injected : (s.setBank b).injected = s.injected := rfl
@[simp] theorem setBank_poisoned : (s.setBank b).poisoned = s.poisoned := rfl
@[simp] theorem setBank_service : (s.setBank b).service = s.service := rfl
@[simp] theorem setBank_slicemap : (s.setBank b).slicemap = s.slicemap := rfl
@[simp] theorem setBank_bindings : (s.setBank b).bindings = s.bindings := rfl
@[simp] theorem setBank_lstat : (s.setBank b).lstat = s.lstat := rfl
@[simp] theorem setBank_contexts : (s.setBank b).contexts = s.contexts := rfl
@[simp] theorem setBank_killed : (s.setBank b).killed = s.killed := rfl
@[simp] theorem setBank_killedAt : (s.setBank b).killedAt = s.killedAt := rfl
@[simp] theorem setBank_parsing : (s.setBank b).parsing = s.parsing := rfl
@[simp] theorem setBank_dispReads : (s.setBank b).dispReads = s.dispReads := rfl
@[simp] theorem setBank_banks : (s.setBank b).banks = b :: s.banks.filter (·.bank != b.bank) := rfl
@[simp] theorem setBank_resetvec : (s.setBank b).resetvec = s.resetvec := rfl
@[simp] theorem setBank_preq : (s.setBank b).preq = s.preq := rfl
@[simp] theorem setBank_clusterTlb : (s.setBank b).clusterTlb = s.clusterTlb := rfl
@[simp] theorem setBank_misses : (s.setBank b).misses = s.misses := rfl
@[simp] theorem setBank_images : (s.setBank b).images = s.images := rfl
@[simp] theorem setBank_turns : (s.setBank b).turns = s.turns := rfl
@[simp] theorem setBank_reclaims : (s.setBank b).reclaims = s.reclaims := rfl
@[simp] theorem setBank_areas : (s.setBank b).areas = s.areas := rfl
@[simp] theorem setBank_pins : (s.setBank b).pins = s.pins := rfl
@[simp] theorem setBank_compacts : (s.setBank b).compacts = s.compacts := rfl
@[simp] theorem setBank_nextCompact : (s.setBank b).nextCompact = s.nextCompact := rfl
@[simp] theorem setBank_domains : (s.setBank b).domains = s.domains := rfl
@[simp] theorem setBank_nextLid : (s.setBank b).nextLid = s.nextLid := rfl
@[simp] theorem setBank_stamp : (s.setBank b).stamp = s.stamp := rfl
@[simp] theorem setBank_launches : (s.setBank b).launches = s.launches := rfl
@[simp] theorem setBank_gangs : (s.setBank b).gangs = s.gangs := rfl
@[simp] theorem setBank_heads : (s.setBank b).heads = s.heads := rfl
@[simp] theorem setBank_placed : (s.setBank b).placed = s.placed := rfl
@[simp] theorem setBank_domainGangs : (s.setBank b).domainGangs = s.domainGangs := rfl
@[simp] theorem setBank_graphs : (s.setBank b).graphs = s.graphs := rfl
@[simp] theorem setBank_handles : (s.setBank b).handles = s.handles := rfl
@[simp] theorem setBank_mailboxes : (s.setBank b).mailboxes = s.mailboxes := rfl
@[simp] theorem setBank_ports : (s.setBank b).ports = s.ports := rfl
@[simp] theorem setBank_links : (s.setBank b).links = s.links := rfl
@[simp] theorem setBank_boxes : (s.setBank b).boxes = s.boxes := rfl
@[simp] theorem setBank_hostBias : (s.setBank b).hostBias = s.hostBias := rfl
@[simp] theorem setBank_snoop : (s.setBank b).snoop = s.snoop := rfl
@[simp] theorem setBank_snoopClean : (s.setBank b).snoopClean = s.snoopClean := rfl
@[simp] theorem setBank_farOwned : (s.setBank b).farOwned = s.farOwned := rfl
@[simp] theorem setBank_reportsHeld : (s.setBank b).reportsHeld = s.reportsHeld := rfl
@[simp] theorem setBank_appCache : (s.setBank b).appCache = s.appCache := rfl
@[simp] theorem setBank_flips : (s.setBank b).flips = s.flips := rfl
@[simp] theorem setBank_biascmd : (s.setBank b).biascmd = s.biascmd := rfl
@[simp] theorem setBank_biasErr : (s.setBank b).biasErr = s.biasErr := rfl
@[simp] theorem setBank_biasDone : (s.setBank b).biasDone = s.biasDone := rfl
@[simp] theorem setBank_msix : (s.setBank b).msix = s.msix := rfl
@[simp] theorem setBank_hostData : (s.setBank b).hostData = s.hostData := rfl
@[simp] theorem setBank_hostError : (s.setBank b).hostError = s.hostError := rfl
@[simp] theorem setBank_cores : (s.setBank b).cores = s.cores := rfl
@[simp] theorem setBank_reservations : (s.setBank b).reservations = s.reservations := rfl
@[simp] theorem setBank_appRegs : (s.setBank b).appRegs = s.appRegs := rfl
@[simp] theorem setBank_mgmt : (s.setBank b).mgmt = s.mgmt := rfl
end

/-! ### Operations that change the tile in focus alone -/

theorem setCore_frame (s : State) (c : Core) : s.setCore c = { s with tile := (s.setCore c).tile } :=
  rfl

theorem writeX_frame (s : State) (r : XReg) (v : Word) (lat : Nat) (st : StallCode) :
    s.writeX r v lat st = { s with tile := (s.writeX r v lat st).tile } := by
  unfold State.writeX
  split <;> rfl

theorem commitX_frame (s : State) (r : XReg) (v : Word) :
    s.commitX r v = { s with tile := (s.commitX r v).tile } := by
  unfold State.commitX
  split <;> rfl

theorem writeM_frame (s : State) (r : MReg) (v : Word) (lat : Nat) (st : StallCode) :
    s.writeM r v lat st = { s with tile := (s.writeM r v lat st).tile } := by
  unfold State.writeM
  split <;> rfl

theorem writeVReg_frame (s : State) (r : Nat) (v : Vec) (lat : Nat) (st : StallCode) :
    s.writeVReg r v lat st = { s with tile := (s.writeVReg r v lat st).tile } := rfl

theorem orFlags_frame (s : State) (f : FpFlags) :
    s.orFlags f = { s with tile := (s.orFlags f).tile } := rfl

theorem noteSide_frame (s : State) (b : Bool) :
    s.noteSide b = { s with tile := (s.noteSide b).tile } := by
  unfold State.noteSide
  split <;> rfl

theorem settle_frame (s : State) : s.settle = { s with tile := s.settle.tile } := by
  unfold State.settle
  dsimp only
  split <;> rfl

theorem goTo_frame (s : State) (pc : Word) (w : Nat) :
    s.goTo pc w = { s with tile := (s.goTo pc w).tile } := by
  unfold State.goTo
  dsimp only
  split <;> rfl

theorem advance_frame (s : State) (st : StallCode) :
    s.advance st = { s with tile := (s.advance st).tile } := goTo_frame ..

theorem stay_frame (s : State) (k : Nat) : s.stay k = { s with tile := (s.stay k).tile } := rfl

theorem writeMfinfo_frame (s : State) (m : Option Word) :
    s.writeMfinfo m = { s with tile := (s.writeMfinfo m).tile } := by
  unfold State.writeMfinfo
  split <;> rfl

theorem enterTrap_frame (s : State) (int : Bool) (code : Nat) (tval epc : Word) (level : Nat) :
    s.enterTrap int code tval epc level =
      { s with exc := true, tile := (s.enterTrap int code tval epc level).tile } := rfl

/-- A wait for a walk changes the tile and the miss table. -/
theorem awaitWalk_frame (s : State) (va : Word) : s.awaitWalk va =
    { s with tile := (s.awaitWalk va).tile, misses := (s.awaitWalk va).misses } := rfl

/-- Only lost data roll a compact back instead of trapping (13 R338). -/
theorem rollsBack_none (s : State) (c : Cause) (m : Option Word) (h : c ≠ .dataerr) :
    s.rollsBack c.code m = none := by
  unfold State.rollsBack
  have : (c.code == Cause.dataerr.code) = false := by cases c <;> simp_all [Cause.code]
  simp [this]

/-- A trap changes the tile and takes note of itself, where no compact rolls back instead. -/
theorem raise_frame (s : State) (t : Trap) (h : t.cause ≠ .waits)
    (hr : s.rollsBack t.cause.code t.mfinfo = none) :
    s.raise t = { s with exc := true, tile := (s.raise t).tile } := by
  unfold State.raise
  rw [if_neg h, hr]
  dsimp only
  split
  · rw [writeMfinfo_frame]; rfl
  · rw [writeMfinfo_frame]; rfl
  · rfl
  · rfl

end Sys2Proof.Machine
end

