-- ==== Sys2Proof/Tests/Slice0.lean ====
section
/-! SUPPORT. Tests: ill-formed terms, words written out from the encodings, witnesses of the
hypotheses of the statements, and single steps. -/
open Sys2Proof Sys2Proof.Machine
namespace Sys2Proof.Tests

set_option Elab.async false

/-! ### Small states -/

/-- The device after reset, the hart of tile 0 running at 0x1000. -/
def w0 : State := { State.reset with
  tile := { Tile.reset 0 with run := .running, eh := ⟨RegFile.zero 40 64, 0x1000, 0, 0, none⟩ } }

/-- x registers of the execute hart set. -/
def wx (l : List (Nat × Word)) (s : State) : State := s.onTile fun t => { t with
  eh := { t.eh with x := l.foldl (fun f p => f.commit p.1 p.2) t.eh.x } }

/-- Control registers changed. -/
def wc (f : CtrlRegs → CtrlRegs) (s : State) : State := s.onTile fun t => { t with cr := f t.cr }

/-- At APP. -/
def wApp (s : State) : State := wc (fun c => { c with status := 0 }) s

/-- x1 = 0x2000, an address of HBM, x2 = 5. -/
def w1 : State := wx [(1, 0x2000), (2, 5)] w0

/-- Segment 0 of tile 0 in scratchpad use and x1 at it. -/
def wScratch : State := wc (fun c => { c with segmode := 1 }) (wx [(1, 0x10000000000)] w0)

def wWho (u : UnitId) (s : State) : State := { s with who := u }

/-- A choice to leave requests under way. -/
def wDefer (s : State) : State := { s with choice := ⟨true, false, false⟩ }

/-- An event's argument. -/
def wArg (a : EventArg) (s : State) : State := { s with arg := a }

/-- The answer is the value. -/
def isOk {ε α : Type} [DecidableEq α] (e : Except ε α) (x : α) : Bool :=
  match e with
  | .ok y => decide (y = x)
  | .error _ => false

theorem isOk_iff {ε α : Type} [DecidableEq α] (e : Except ε α) (x : α) :
    isOk e x = true ↔ e = .ok x := by
  cases e <;> simp [isOk]

/-- The check of an access passes, untranslated. -/
def passes (s : State) (f : Form) (va : Word) (pa : Nat) : Bool :=
  isOk (s.check f va) ⟨pa, false, false, none⟩

/-- Every one of the registers may be read. -/
def allRead (s : State) : Bool := (List.range 32).all fun r => s.ready [.x r] []

/-- The check of an access fails. -/
def fails (s : State) (f : Form) (va : Word) : Bool :=
  match s.check f va with
  | .error _ => true
  | .ok _ => false

def fLd (n : Nat) : Form := { kind := .load, align := n }
def fSt (n : Nat) : Form := { kind := .store, align := n }

/-- A line of memory of this device that no tile holds. -/
def plain (s : State) (pa : Nat) : Bool :=
  s.isLocal pa && memoryAt (localAddr pa) && s.uncached (lineOf (localAddr pa))

/-! ### Ill-formed terms, one for each check of WellFormed -/

theorem test_ill_formed :
    ([.vadd 0 1 2 3 0 .bp, .vmulh 0 1 2 3 0 .f32, .vdiv 0 1 2 3 0 .i32, .vmv 0 1 2 0 .bp,
      .vdot4 0 1 2 3 0 .f32, .vclass 0 1 2 .i8, .vcvt 0 1 2 .f16 0 .f32, .vcvtn 0 1 2 .f32 0 .i8,
      .vcvtwl 0 1 2 .i64 0, .vcvtwh 0 1 2 .f32 0, .vgath 0 1 2 3 0 1, .vscat 0 1 2 3 0 0,
      .mmag 0 0 0 0 31, .mpsum 0 1 0 0 0, .ttrans 0 0 3 0, .fence 0 0 0 1 0, .fence 0 1 0 5 0,
      .fence 0 0 1 1 1, .etcall 0 31 1 4 0 0, .etcall 0 1 1 29 0 0, .cpy 0 1 29, .bdesc 0 1 0,
      .inbdq 0 29, .crr 0 1 0x27,
      .crw 0 1 0x46, .crset 0 1 0x1C, .crclr 0 1 0x3FF, .send 0 1 29, .recv 0 28 0, .recvtry 0 28 0,
      .errrd 0 30 1] : List Instr).all (fun i => !i.wellFormed) = true := by decide +kernel

/-! ### Words written out from the opcode table: every row once -/

/-- The words decode to the instructions, and the instructions encode to the words. -/
def reads (l : List (Nat × Instr)) : Bool :=
  l.all fun p => decide (decodeTableWord 32 p.1 = some p.2) &&
    (encode p.2 &&& 0x1FFFFFFF#32) == (BitVec.ofNat 32 p.1 &&& 0x1FFFFFFF#32)

theorem test_words_1 : reads [
    (0xA04C7400, .add 5 6 7 8), (0x80704801, .sub 4 24 4 16), (0x60541C02, .and 3 10 1 24),
    (0x4079EF83, .or 2 28 30 31), (0x205DB404, .xor 1 14 27 8), (0xE07F8805, .andn 7 31 24 16),
    (0xE0655C06, .orn 7 18 21 24), (0xC0492F87, .sll 6 4 18 31), (0xA06CF408, .srl 5 22 15 8),
    (0x8050C809, .sra 4 8 12 16), (0x60749C0A, .rol 3 26 9 24), (0x40586F8B, .ror 2 12 6 31),
    (0x207C340C, .slt 1 30 3 8), (0xE061F80D, .sltu 7 16 31 16), (0xE045DC0E, .min 7 2 29 24),
    (0xC069AF8F, .max 6 20 26 31), (0xA04D7410, .minu 5 6 23 8), (0x80714811, .maxu 4 24 20 16),
    (0x60551C12, .mul 3 10 17 24), (0x4078EF93, .mulh 2 28 14 31), (0x205CB414, .mulhu 1 14 11 8),
    (0xE07E8815, .mulhsu 7 31 8 16), (0xE0645C16, .div 7 18 5 24), (0xC0482F97, .divu 6 4 2 31),
    (0xA06DF418, .rem 5 22 31 8), (0x8051C819, .remu 4 8 28 16), (0x6075901A, .clz 3 26 25),
    (0x4059601B, .ctz 2 12 22), (0x207D301C, .cpop 1 30 19), (0xE061001D, .sextb 7 16 16),
    (0xE044D01E, .sexth 7 2 13), (0xC068A01F, .sextw 6 20 10)] = true := by decide +kernel

theorem test_words_2 : reads [
    (0xA04C7020, .zextw 5 6 7), (0x80704821, .shadd1 4 24 4 16), (0x60541C22, .shadd2 3 10 1 24),
    (0x4079EFA3, .shadd3 2 28 30 31), (0x209DBBA8, .addi 1 14 27 0xba8),
    (0xE0FF8BD0, .andi 7 31 24 0xbd0), (0xE1255BF8, .ori 7 18 21 0xbf8),
    (0xC1492C20, .xori 6 4 18 0xc20), (0xA1ACFC48, .slti 5 22 15 0xc48),
    (0x81D0CC70, .sltiu 4 8 12 0xc70), (0x62349018, .slli 3 26 9 24), (0x4218643F, .srli 2 12 6 63),
    (0x223C3828, .srai 1 30 3 40), (0xE221FC10, .rori 7 16 31 16), (0xE245AB1D, .ldhi 7 2 0x1ab1d),
    (0xC2A9AB3A, .addpc 6 20 0x1ab3a), (0xA40D7D88, .beq 5 6 23 0xd88),
    (0x84714DB0, .bne 4 24 20 0xdb0), (0x64951DD8, .blt 3 10 17 0xdd8),
    (0x44F8EE00, .bge 2 28 14 0xe00), (0x251CBE28, .bltu 1 14 11 0xe28),
    (0xE57E8E50, .bgeu 7 31 8 0xe50), (0xE5A5AC05, .jal 7 18 0x1ac05),
    (0xC5C82EA0, .jalr 6 4 2 0xea0), (0xA618FFF0, .frame 5 6 63 7 1 1 1),
    (0x8641A9C8, .bqt 4 0x1a9c8), (0x6681A9DA, .bqf 3 0x1a9da), (0x46C0C001, .bqpush 2 12 1),
    (0x27053F68, .qld 1 2 19 0xf68), (0xE7470F90, .qst 7 3 16 0xf90), (0xE7802000, .qbind 7 2),
    (0xC7814001, .qunbind 6 20)] = true := by decide +kernel

theorem test_words_3 : reads [
    (0xA7827402, .qstart 5 1 7 8), (0x87820003, .qstop 4 1), (0x67820004, .qwait 3 1),
    (0x4839E080, .lb 2 28 30 128), (0x285DB0A8, .lh 1 14 27 168), (0xE8BF80D0, .lw 7 31 24 208),
    (0xE8E550F8, .ld 7 18 21 248), (0xC9092120, .lbu 6 4 18 288), (0xA96CF148, .lhu 5 22 15 328),
    (0x8990C170, .lwu 4 8 12 368), (0x69F49198, .sb 3 26 9 408), (0x4A1861C0, .sh 2 12 6 448),
    (0x2A7C31E8, .sw 1 30 3 488), (0xEAA1F210, .sd 7 16 31 528), (0xEAC5D238, .ldw 7 2 29 568),
    (0xCB29A260, .ldwe 6 20 26 608), (0xAB4D7288, .stw 5 6 23 648), (0x8BB142B0, .stf 4 24 20 688),
    (0x6BD512D8, .ldf 3 10 17 728), (0x4C38EEB2, .vld 2 28 14 7 178),
    (0x2C5CBEE5, .vst 1 14 11 7 229), (0xECBE8873, .vlds 7 31 8 16 7 3),
    (0xECE45C32, .vsts 7 18 5 24 3 2), (0xCD082FE3, .vgath 6 4 2 31 6 3),
    (0xAD6DF412, .vscat 5 22 31 8 1 2), (0x8D8FC800, .tld 4 7 28 16), (0x6DC59C00, .tst 3 2 25 24),
    (0x4E00C000, .cpref 2 12), (0x2E01E001, .cclean 1 30), (0xEE010002, .cflush 7 16),
    (0xEE002003, .cinv 7 2), (0xCE28A004, .feget 6 20 10)] = true := by decide +kernel

theorem test_words_4 : reads [
    (0xAE006385, .feset 5 6 7), (0x8E781000, .fence 4 1 1 4 1), (0x6E40A082, .fencem 3 10 1),
    (0x4EB9EF87, .amoadd 2 28 30 31 1 3), (0x2E9DB40E, .amoand 1 14 27 8 1 2),
    (0xEEBF8817, .amoor 7 31 24 16 1 3), (0xEEA55C1E, .amoxor 7 18 21 24 1 2),
    (0xCE892FA7, .amomin 6 4 18 31 1 3), (0xAEACF42E, .amomax 5 22 15 8 1 2),
    (0x8E90C837, .amominu 4 8 12 16 1 3), (0x6EB49C3E, .amomaxu 3 26 9 24 1 2),
    (0x4E986FC7, .amoswap 2 12 6 31 1 3), (0x2EBC3449, .amofadd 1 30 3 8 1),
    (0xEEA1F853, .amofmax 7 16 31 16 3), (0xEE85DC5E, .amoincs 7 2 29 24 1 2),
    (0xCEE9AF87, .amocas 6 20 26 31 1 3), (0xAF3D7E6A, .etcall 5 30 23 28 1 42),
    (0x8F714800, .etinst 4 24 20 16), (0x6F400501, .etdrop 3 10), (0x4F400002, .etflush 2),
    (0x2F5C0583, .etquery 1 14 11), (0xF03E8877, .vadd 7 31 8 16 7 .n64),
    (0xF0645C38, .vsub 7 18 5 24 3 .f32), (0xD0882FE9, .vmul 6 4 2 31 6 .bf16),
    (0xB0EDF410, .vmulh 5 22 31 8 1 .i8), (0x9111C840, .vfma 4 8 28 16 4 .i8),
    (0x71759C71, .vfms 3 26 25 24 7 .i16), (0x51996FA2, .vfnma 2 12 22 31 2 .i32),
    (0x31FD3459, .vdiv 1 30 19 8 5 .bf16), (0xF221007A, .vsqrt 7 16 16 7 .f16),
    (0xF244DC35, .vmin 7 2 13 24 3 .n16), (0xD2A8AFE6, .vmax 6 20 10 31 6 .n32)] = true := by decide +kernel

theorem test_words_5 : reads [
    (0xB2CC7077, .vabs 5 6 7 7 .n64), (0x93304078, .vneg 4 24 4 7 .f32),
    (0x73541C72, .vand 3 10 1 24 7 .i32), (0x53B9EFA3, .vor 2 28 30 31 2 .i64),
    (0x33DDB454, .vxor 1 14 27 8 5 .n8), (0xF43F8875, .vsll 7 31 24 16 7 .n16),
    (0xF4655C36, .vsrl 7 18 21 24 3 .n32), (0xD4892FE7, .vsra 6 4 18 31 6 .n64),
    (0xB4ECF410, .vsadd 5 22 15 8 1 .i8), (0x9510C841, .vssub 4 8 12 16 4 .i16),
    (0x75449C76, .vcmpeq 3 2 9 24 7 .n32), (0x55886FA7, .vcmplt 2 4 6 31 2 .n64),
    (0x35CC3458, .vcmple 1 6 3 8 5 .f32), (0xF621F879, .vsel 7 16 31 16 7 .bf16),
    (0xF645D07A, .vmv 7 2 29 7 .f16), (0xD6A9A070, .vbcast 6 20 26 7 .i8),
    (0xB6CD7401, .vmvx 5 6 23 8 .i16), (0x97314842, .vslideup 4 24 20 16 4 .i32),
    (0x77551C73, .vslidedn 3 10 17 24 7 .i64), (0x57B8EFA4, .vperm 2 28 14 31 2 .n8),
    (0x37DCB075, .vcompress 1 14 11 7 .n16), (0xF83E8076, .vexpand 7 31 8 7 .n32),
    (0xF8645C37, .vredsum 7 18 5 24 3 .n64), (0xD8882FE8, .vredmax 6 4 2 31 6 .f32),
    (0xB8EDF419, .vredmin 5 22 31 8 1 .bf16), (0x9911C3CA, .vredq 4 8 28 7 4 .f16),
    (0x79759C75, .vdot4 3 26 25 24 7 .n16), (0x5999607A, .vexp2 2 12 22 7 .f16),
    (0x39FD3078, .vlog2 1 30 19 7 .f32), (0xFA210079, .vrcp 7 16 16 7 .bf16),
    (0xFA44D07A, .vrsq 7 2 13 7 .f16), (0xDA882380, .mand 6 4 2 7)] = true := by decide +kernel

theorem test_words_6 : reads [
    (0xBA8C7381, .mor 5 6 7 7), (0x9A8E4382, .mxor 4 7 4 7), (0x7A841003, .mnot 3 2 1),
    (0x5AB86004, .mcnt 2 28 6), (0x3A9C3005, .mfirst 1 14 3), (0xFA8F8006, .mset 7 7 24),
    (0xFAA45007, .mget 7 18 5), (0xDAC9296A, .vcvt 6 4 18 .bf16 6 .f16),
    (0xBB2CFB18, .vcvtn 5 22 15 .e4m3 1 .f32), (0x9B50C040, .vcvtwl 4 8 12 .i8 4),
    (0x7B749971, .vcvtwh 3 26 9 .bf16 7), (0x5B98600E, .vplane 2 12 6),
    (0x3BBC302E, .vunplane 1 30 3), (0xFBA1F84A, .vscaleb 7 16 31 16 .f16),
    (0xFB85D06A, .vclass 7 2 29 .f16), (0xDC29A380, .setshape 6 20 26 7), (0xBC406000, .mgang 5 6),
    (0x9C864380, .mma 4 3 4 7), (0x7CC4139E, .mmag 3 2 1 7 30), (0x5D066040, .mdrain 2 3 6 1),
    (0x3D440000, .mzero 1 2), (0xFD903840, .mpsum 7 8 3 16 1), (0xFDC12000, .mcfg 7 18),
    (0xDDC22001, .mscale 6 1 2), (0xBDCC7002, .tmov 5 6 7), (0x9DD0F203, .tmovv 4 8 1 7 4),
    (0x7DC57004, .ttrans 3 2 2 7), (0x5DD96005, .mstatr 2 12 22), (0x3DCC0006, .tclr 1 6),
    (0xFE216000, .cpy 7 16 22), (0xFE04D001, .cpyd 7 2 13), (0xDE298002, .cpyfill 6 20 24)] = true := by decide +kernel

theorem test_words_7 : reads [
    (0xBE0D9403, .rrot 5 6 25 8), (0x9E31A004, .allred 4 24 26), (0x7E15B005, .bcastc 3 10 27),
    (0x5E380006, .inbdq 2 28), (0x3E1C0007, .inbpeek 1 14), (0xFE01FC08, .inbcfg 7 31 24),
    (0xFE643000, .bcfg 7 18 3), (0xDE484001, .broot 6 4 4), (0xBE6C5002, .bdesc 5 22 5),
    (0x9E506003, .bexp 4 8 6), (0x7E747004, .bback 3 26 7), (0x5E588005, .bpool 2 12 8),
    (0x3E7C9006, .breroot 1 30 9), (0xFE61F807, .bstat 7 16 31 16), (0xFE44B008, .bdrop 7 2 11),
    (0xDE814A60, .sxmit 6 20 1 608), (0xBEC06A88, .ssel 5 6 1 648), (0x9F018000, .csign 4 24),
    (0x7F00A883, .bardom 3 10 17), (0x5F01C004, .bar 2 28), (0x3F1CB005, .snap 1 14 11),
    (0xFF3E8006, .cstat 7 31 8), (0xFF412E00, .send 7 18 28), (0xDF404101, .sendv 6 4 2),
    (0xBF77F002, .recv 5 27 31), (0x9F51C003, .recvv 4 8 28), (0x7F759004, .recvtry 3 26 25),
    (0x5F40CB05, .rld 2 12 22), (0x3F7D3406, .rst 1 30 19 8), (0xFF410007, .chopen 7 16),
    (0xFF44D008, .chclose 7 2 13), (0xDFA9C000, .spawn 6 20 28)] = true := by decide +kernel

theorem test_words_8 : reads [
    (0xBF801001, .taskq 5 1), (0x9F800002, .taskend 4), (0x7F800003, .gdone 3),
    (0x5FB9EF84, .mboxreg 2 28 30 31), (0x3FDC2284, .crr 1 14 69), (0xFFFE1605, .crw 7 31 44),
    (0xFFE41306, .crset 7 18 38), (0xDFC80087, .crclr 6 4 1), (0xBFC16788, .tlbinv 5 22 15),
    (0x9FC00009, .pause 4), (0x7FF4900B, .pgate 3 26 9), (0x5FD8600C, .ctxsave 2 12 6),
    (0x3FC1E00D, .ctxload 1 30), (0xFFFBF00E, .errrd 7 29 31), (0xEE400001, .fencei),
    (0xCE400003, .fencea), (0xBE000009, .uiret), (0x9F000001, .cdiss), (0x7F000002, .sstep),
    (0x5F000007, .sxend), (0x3FC00000, .ecall), (0xFFC00001, .ebrk), (0xFFC00002, .eret),
    (0xDFC00003, .wfi), (0xBFC0000A, .halt)] = true := by decide +kernel

/-- The worked words of 02. -/
theorem test_worked_words : reads [(0x0094AFF0, .addi 0 10 10 0xFF0), (0x0A8E2018, .sd 0 7 2 24),
    (0x044A0FFD, .bne 0 5 0 0xFFD), (0x0253FFFF, .ldhi 0 9 0x1FFFF), (0x05820040, .jal 0 1 0x40),
    (0x02084803, .srai 0 4 4 3), (0xB1081108, .vfma 5 4 1 2 0 .f32),
    (0x0E86A587, .amoadd 0 3 10 11 1 3)] = true := by decide +kernel

/-! ### Witnesses: states and operands that meet the hypotheses of the statements -/

/-- IntegerRegisterForms, IntegerImmediateForms: the hart, and a sequencer. -/
theorem witness_integer : w1.who ≠ .vs ∧ w1.ready [.x 1, .x 2] [.x 3] = true ∧
    (wWho .as w1).who ≠ .vs ∧ (wWho .as w1).ready [.x 1, .x 2] [.x 0] = true := by decide +kernel

/-- The counts at their ends: CLZ and CTZ of 0 and of a word with the end bit set. -/
theorem witness_counts :
    (w0.readX 5).toNat < 2 ^ (64 - 64) ∧
    ((wx [(5, 1)] w0).readX 5).getLsbD 0 = true ∧
    2 ^ (63 - 0) ≤ ((wx [(5, BitVec.allOnes 64)] w0).readX 5).toNat ∧
    (∀ j < 64, (w0.readX 5).getLsbD j = false) := by decide +kernel

/-- BranchesJumpsAndOutcomeQueues: an aligned and a misaligned target, outcome queues empty, with
one outcome and full, and the access sequencer. -/
theorem witness_branches :
    w1.ready [.x 1, .x 2] [] = true ∧ w1.ready [.x 1] [.x 5] = true ∧
    (w1.readX 1 + (4 : BitVec 12).signExtend 64).toNat % 4 = 0 ∧
    (w1.readX 2 + (0 : BitVec 12).signExtend 64).toNat % 4 ≠ 0 ∧
    w1.boq = [] ∧ (w1.onTile fun t => { t with boqE := [true] }).boq = true :: [] ∧
    w1.tile.boqA.length < 16 ∧ w1.tile.boqS.length < 16 ∧ w1.tile.boqE.length < 16 ∧
    (let t := w1.onTile fun t => { t with
       boqA := List.replicate 16 true, boqS := List.replicate 16 true
       boqE := List.replicate 16 true }
     16 ≤ t.tile.boqA.length ∧ 16 ≤ t.tile.boqS.length ∧ 16 ≤ t.tile.boqE.length) ∧
    (wWho .as w1).who = .as ∧ (wWho .as w1).ready [.x 1] [] = true := by decide +kernel

/-- ScalarLoadsReadTheirBytes: HBM, a misaligned address, a delayed load, the register space. -/
theorem witness_loads :
    w1.ready [.x 1] [.x 3] = true ∧ w1.loadWaits = false ∧
    passes w1 { kind := .load, align := 8, plain8 := true } (w1.readX 1 + (8 : BitVec
      12).signExtend 64) 0x2008 = true ∧ w1.isLocal 0x2008 = true ∧ w1.alone = true ∧
    memoryAt (localAddr 0x2008) = true ∧ w1.uncached (lineOf (localAddr 0x2008)) = true ∧
    fails w1 (fLd 2) (w1.readX 2) = true ∧
    (wDefer w1).choice.defer = true ∧ (wDefer w1).loadWaits = false ∧
    w1.regSpace 0x20030001008 = some 0 ∧ w1.regsWait 0x20030001008 = false ∧
    passes w1 { kind := .load, align := 8, plain8 := true } 0x20030001008 0x20030001008 = true ∧
    (wWho .as w1).ready [.x 1] [.x 3] = true := by decide +kernel

/-- ScalarStoresWriteTheirBytes. -/
theorem witness_stores :
    w1.ready [.x 1, .x 2] [] = true ∧ w1.storeWaits = false ∧
    passes w1 { kind := .store, align := 4, plain8 := false } (w1.readX 1 + (0 : BitVec
      12).signExtend 64) 0x2000 = true ∧ w1.isLocal 0x2000 = true ∧
      memoryAt (localAddr 0x2000) = true ∧
    w1.alone = true ∧ w1.uncached (lineOf (localAddr 0x2000)) = true ∧
    fails w1 { kind := .store, align := 8, plain8 := true } (w1.readX 2) = true ∧
    (wWho .ss w1).ready [.x 1, .x 2] [] = true ∧
    (wDefer w1).storeWaits = false ∧ (wDefer w1).choice.defer = true := by decide +kernel

/-- A word of segment 0 made EMPTY. -/
def wEmpty : State := wScratch.onTile fun t => { t with empty := [0] }

/-- FullEmptyWordsAreReadAndWritten: a FULL and an EMPTY word. -/
theorem witness_full_empty :
    wScratch.ready [.x 1, .x 2] [.x 3] = true ∧ wScratch.alone = true ∧ wScratch.myWait = none ∧
    regionOf (localAddr 0x10000000000) = .window 0 0 ∧ (wScratch.getTile 0).feWaits = [] ∧
    passes wScratch feLoad (wScratch.readX 1 + (0 : BitVec 12).signExtend 64) 0x10000000000 = true ∧
    passes wScratch feWrite (wScratch.readX 1 + (0 : BitVec 12).signExtend 64) 0x10000000000 =
      true ∧
    (wScratch.getTile 0).isEmpty 0 = false ∧ wScratch.tile.tasks.running = none ∧
    passes wEmpty feLoad (wEmpty.readX 1) 0x10000000000 = true ∧
    passes wEmpty feWrite (wEmpty.readX 1) 0x10000000000 = true ∧
    (wEmpty.getTile 0).isEmpty 0 = true ∧ wEmpty.myWait = none ∧ wEmpty.alone = true :=
  by decide +kernel

/-- VectorLoadsReadEnabledElements, VectorStoresWriteEnabledElements: all elements enabled by m0 and
none by m1, at 64 bytes of HBM and at elements 4 apart and 4 · V[C] away. -/
theorem witness_vector_memory :
    w1.tile.frame = none ∧ w1.alone = true ∧ w1.tile.bound 3 = false ∧
    w1.ready [.x 1, .x 2, .m 0, .v 4, .v 3] [.v 3] = true ∧
    passes w1 (fLd 64) (w1.readX 1 + (1 : BitVec 9).signExtend 64 * 64) 0x2040 = true ∧
    passes w1 { kind := .store, align := 64, vst := true }
      (w1.readX 1 + (1 : BitVec 9).signExtend 64 * 64) 0x2040 = true ∧
    (∀ k < 16, (w1.readM 0).getLsbD k = true ∧ (w1.readM 1).getLsbD k = false ∧
      passes w1 (fLd 4) (0x2000 + BitVec.ofNat 64 k * 4) (0x2000 + 4 * k) = true ∧
      passes w1 (fSt 4) (0x2000 + BitVec.ofNat 64 k * 4) (0x2000 + 4 * k) = true ∧
      passes w1 (fLd 4) (w1.readX 1 +
        BitVec.ofInt 64 (signedAt 4 (elem (w1.readV 4) 32 k)) * 4) 0x2000 = true ∧
      passes w1 (fSt 4) (w1.readX 1 +
        BitVec.ofInt 64 (signedAt 4 (elem (w1.readV 4) 32 k)) * 4) 0x2000 = true ∧
      w1.isLocal (0x2000 + 4 * k) = true ∧ memoryAt (localAddr (0x2000 + 4 * k)) = true ∧
      w1.uncached (lineOf (localAddr (0x2000 + 4 * k))) = true) := by decide +kernel

/-- TileTransfersMoveRows: rows of 64 bytes from 0x2000 on, 64 apart. -/
theorem witness_tile_transfers :
    let s := wx [(2, 64)] w1
    s.gangHeld = false ∧ s.tile.frame = none ∧ s.ready [.x 1, .x 2, .t 0] [.t 0] = true ∧
    1 ≤ s.tile.rows 0 ∧ s.tile.rows 0 ≤ 64 ∧ 1 ≤ s.tile.colb 0 ∧ s.tile.colb 0 ≤ 64 ∧
    (∀ j < s.tile.rows 0, ∀ k < (s.tile.colb 0 + 7) / 8,
      passes s (fLd 8) (s.readX 1 + BitVec.ofNat 64 j * s.readX 2 +
        BitVec.ofNat 64 (8 * k)) (0x2000 + 64 * j + 8 * k) = true ∧
      passes s (fSt 8) (s.readX 1 + BitVec.ofNat 64 j * s.readX 2 +
        BitVec.ofNat 64 (8 * k)) (0x2000 + 64 * j + 8 * k) = true) := by decide +kernel

/-- HomeWritesChangeOnlyTheirBytes: the last byte of a line of HBM, and a scratchpad word. -/
theorem witness_home_writes :
    w1.uncached (lineOf 0x207F) = true ∧ memoryAt 0x207F = true ∧ 0x207F % 128 + 1 ≤ 128 ∧
    wScratch.uncached (lineOf 0x10000000000) = true ∧ memoryAt 0x10000000000 = true ∧
    regionOf 0x10000000000 = .window 0 0 ∧ windowOf 0 = 0 := by decide +kernel

/-- An entry of a stream queue. -/
def qe (k : Nat) : QEntry := ⟨k, 7, true, false⟩

/-- StreamTransfersFillAndDrainQueues: the access sequencer with room and without, the store
sequencer with an entry and without. -/
theorem witness_streams :
    let q (k n : Nat) (s : State) : State :=
      s.onTile fun t => { t with queues := vset t.queues k ((List.range n).map qe) }
    let a := (w1.onTile fun t => { t with
      acSeq := { t.acSeq with core := t.eh }, stSeq := { t.stSeq with core := t.eh } })
    let s := wWho .as a
    let r := wWho .ss (q 5 1 a)
    s.alone = true ∧ s.ready [.x 1] [] = true ∧ (vget s.tile.queues 2 []).length < 8 ∧
    8 ≤ (vget (q 2 8 s).tile.queues 2 []).length ∧ s.isLocal 0x2000 = true ∧ 0x2000 % 64 = 0 ∧
    passes s (fLd 64) (s.readX 1 + (0 : BitVec 12).signExtend 64) 0x2000 = true ∧
    vget r.tile.queues 5 [] = qe 0 :: [] ∧ (qe 0).arrived = true ∧
    passes r (fSt 64) (r.readX 1 + (0 : BitVec 12).signExtend 64) 0x2000 = true ∧
    vget (wWho .ss a).tile.queues 5 [] = [] ∧ r.alone = true := by
  decide +kernel


/-- SequencersStartStopAndBind: an image of 4 and of 16,384 bytes at 0x2000, a sequencer that runs
and one that does not. -/
theorem witness_sequencers :
    w1.who = .eh ∧ w1.drained = true ∧ w1.ready [.x 1] [] = true ∧ w1.alone = true ∧
    ([4, 16384].all fun n =>
      let s := wx [(2, BitVec.ofNat 64 n)] w1
      allRead s && decide ((s.readX 1).toNat % 128 = 0) &&
        (List.range ((n + 127) / 128)).all fun k =>
          passes s { kind := .load, align := 128 } (s.readX 1 + BitVec.ofNat 64 (128 * k))
            (0x2000 + 128 * k) && plain s (0x2000 + 128 * k)) = true ∧
    (w1.tile.seq (seqUnit 0)).copying = none ∧ (w1.tile.seq (seqUnit 1)).copying = none ∧
    (w1.tile.seq (seqUnit 1)).running = false ∧ w1.tile.quiet (seqUnit 1) = true ∧
    ((w1.onTile fun t => t.setSeq .as { t.acSeq with running := true }).tile.seq
      (seqUnit 0)).running = true := by decide +kernel

/-- A dirty copy of line 0x2000 in the tile. -/
def wLine : State := w1.onTile fun t => { t with cache := [⟨0x2000, 7, 0, true, true, true, true, false, 1, 1⟩] }

/-- A command. -/
def aCmd : Command := ⟨0, 2, 0, 0, 0, 0, [], 0, true, true, 0, 0, [], 0, 0, 0, none, 0, 0, [], false,
  [], 0, none, 0, none, 0, 0⟩

/-- A command under way. -/
def wCmd : State := w1.onTile fun t => { t with cmds := [aCmd] }

/-- CacheMaintenanceAndFences: with a copy and without, a load under way and none, stores under
way and none. -/
theorem witness_maintenance :
    w1.ready [.x 1] [] = true ∧ w1.alone = true ∧ wLine.alone = true ∧ w1.isLocal 0x2000 = true ∧
    passes w1 { kind := .load, align := 0, maint := true } (w1.readX 1) 0x2000 = true ∧
    passes w1 { kind := .store, align := 0, maint := true } (w1.readX 1) 0x2000 = true ∧
    passes wLine { kind := .load, align := 0, maint := true } (wLine.readX 1) 0x2000 = true ∧
    passes wLine { kind := .store, align := 0, maint := true } (wLine.readX 1) 0x2000 = true ∧
    w1.tile.line (lineOf (localAddr 0x2000)) = none ∧
    wLine.tile.line (lineOf (localAddr 0x2000)) = some ⟨0x2000, 7, 0, true, true, true, true, false, 1, 1⟩ ∧
    cacheable (localAddr 0x2000) = true ∧
    fails w1 { kind := .load, align := 0, maint := true } (BitVec.allOnes 64) = true ∧
    w1.drained = true ∧ (List.range 6).all (fun c => w1.releasedAt c) = true ∧
    w1.tile.quiet .as = true ∧ w1.tile.quiet .ss = true ∧ w1.tile.commandsDone = true ∧
    (let t := wDefer w1
     let t := match exec (.sd 0 2 1 0) t with | .next t => t | .fault _ => t | .refused _ => t
     t.releasedAt 3 = false ∧ t.drained = true) ∧
    wCmd.tile.commandsDone = false := by decide +kernel

/-- AtomicsReadComputeAndWrite: words of four and eight bytes of HBM. -/
theorem witness_atomics :
    w1.ready [.x 1, .x 2, .x 3] [.x 3] = true ∧ w1.alone = true ∧ plain w1 0x2000 = true ∧
    passes w1 { kind := .atomic, align := 4 } (w1.readX 1) 0x2000 = true ∧
    passes w1 { kind := .atomic, align := 8 } (w1.readX 1) 0x2000 = true ∧
    w1.tile.syncScope ≠ 0 ∧ (wc (fun c => { c with syncscope := 0 }) w1).tile.syncScope = 0 := by
  decide +kernel

/-- EADD l1 := l0 + e0, EEND. -/
def etchWords : List Word32 :=
  [BitVec.ofNat 32 (2 * 2 ^ 26 + 1 * 2 ^ 21 + 0 * 2 ^ 16 + 16 * 2 ^ 11), BitVec.ofNat 32 (25 * 2 ^ 26)]

/-- Routine 1 as cached at the slice of a line. -/
def anImage (la : Nat) : EtchImage := ⟨State.reset.homeOf la, 0, 1, 1, etchWords⟩

/-- A routine table at 0x3000 whose routine 1 is cached at the slices of two lines. -/
def wEtch : State :=
  { wc (fun c => { c with etbase := 0x3001 }) (wx [(1, 0x4000), (2, 5)] w0) with
    images := [anImage 0x4000, anImage 0x2000] }

/-- EtchCallsAndOperations: a call of a cached routine on the line at 0x4000, and one word for each
operation with the conditions of ESKIPZ both ways. -/
theorem witness_etch_call :
    wEtch.alone = true ∧ (Instr.etcall 0 6 1 2 1 1).wellFormed = true ∧
    wEtch.ready [.x 1, .x 2, .x (2 + 1), .x (2 + 2), .x (2 + 3)] [.x 6, .x (6 + 1)] = true ∧
    (wEtch.readX 1).toNat % 128 = 0 ∧ bitAt wEtch.tile.cr.etbase 0 = true ∧
    passes wEtch { kind := .atomic, align := 0 } (wEtch.readX 1) 0x4000 = true ∧
    wEtch.etchTarget 0x4000 = true ∧ (match regionOf (localAddr 0x4000) with
      | .window _ off => decide (windowOf off = 0) | _ => true) = true ∧
    wEtch.uncached (localAddr 0x4000) = true ∧
    (wEtch.images.find? fun m => m.home == wEtch.homeOf (localAddr 0x4000) &&
      m.ctx == wEtch.tile.ctx && m.id == (1 : BitVec 6).toNat) = some (anImage 0x4000) ∧
    ((List.range 26).all fun k => etchOp (BitVec.ofNat 32 (k * 2 ^ 26)) == k) = true ∧
    etchS1 (BitVec.ofNat 32 (24 * 2 ^ 26 + 16 * 2 ^ 16)) = 16 ∧
    etchK (BitVec.ofNat 32 (22 * 2 ^ 26 + 1)) % 2 = 1 ∧ etchK (BitVec.ofNat 32 (22 * 2 ^ 26)) % 2 = 0 ∧
    (EtchRun.mk (List.replicate 24 0) 0 false false).reg 16 = 0 ∧
    (EtchRun.mk (List.replicate 24 1) 0 false false).reg 16 ≠ 0 := by decide +kernel

/-- RoutineManagementChangesTheTable: the image at 0x4000, its number and length in x2. -/
theorem witness_routines :
    let s := wEtch.onTile fun t => { t with eh := { t.eh with x := t.eh.x.commit 2 0x201 } }
    let s := (List.range 2).foldl (fun s k => s.writeMem 0 (0x4000 + 4 * k) 4
      ((etchWords.getD k 0).toNat)) s
    s.alone = true ∧ s.ready [.x 1, .x 2] [.x 6] = true ∧ s.core.begun = none ∧ bitAt s.tile.cr.etbase 0 = true ∧
    (s.readX 2).toNat % 64 = 1 ∧ (s.readX 2).toNat / 256 % 64 = 2 ∧
    s.tile.etEntry 1 = 0x3010 ∧ plain s 0x3010 = true ∧ plain s 0x4000 = true ∧
    passes s { kind := .load, align := 128 } (s.readX 1) 0x4000 = true ∧
    etchCheck ((List.range 32).map fun k => BitVec.ofNat 32 (s.readMem (0x4000 + 4 * k) 4)) 2 =
      none ∧
    passes s { kind := .store, align := 8 } 0x3010 0x3010 = true ∧
    passes s { kind := .load, align := 8 } (0x3010 + 8) (0x3010 + 8) = true := by decide +kernel

/-- VectorArithmeticActsPerElement to VectorMovesPermutationsReductions: the hart with no register
bound, at every type; an element number of 0 and one past the end; no element and every element
chosen; types on both sides of each condition. -/
theorem witness_vectors :
    w1.vectorReady [1, 2, 3] [1] [5, 6] = true ∧ w1.who = .eh ∧
    ElemType.i8.isFp = false ∧ ElemType.f32.isFp = true ∧ ElemType.i64.isFp = false ∧
    ElemType.bp.isFp = false ∧ 4 * ElemType.i16.width ≤ 64 ∧ 4 * ElemType.bp.width ≤ 64 ∧
    ElemType.i8.width < ElemType.i16.width ∧ ElemType.i8.widened = some .i16 ∧
    ElemType.f16.widened = some .f32 ∧
    lanes ElemType.i8.width = 64 ∧ lanes ElemType.i64.width ≤ 64 ∧
    (w1.readX 5).toNat < lanes 64 ∧
    lanes 64 ≤ (wx [(5, 8)] w1 |>.readX 5).toNat ∧
    (List.range 16).filter (fun k => (w1.readM 0).getLsbD k) ≠ [] ∧
    (List.range 16).filter (fun k => (w1.readM 1).getLsbD k) = [] := by decide +kernel

/-- A maximum and a minimum among B[0] and the enabled elements of A, of equal elements and of
distinct ones. -/
theorem witness_reduction :
    (∀ u ∈ [5, 5], ElemType.i8.toInt u ≤ ElemType.i8.toInt 5) ∧
    (∀ u ∈ [0, 255, 127], ElemType.i8.toInt u ≤ ElemType.i8.toInt 127) ∧
    (∀ u ∈ [0, 255, 127], ElemType.i8.toInt 255 ≤ ElemType.i8.toInt u) := by decide +kernel

/-- ComparesAndMaskOperations: a NaN and a number; the first set bit at 0, at 63 and absent. -/
theorem witness_masks :
    w1.vectorReady [1, 2] [1, 2, 3, 4] [5] = true ∧
    (ElemType.f32.fmt.value 0x7FC00000).isNaN = true ∧ (ElemType.f32.fmt.value 0).isNaN = false ∧
    (w1.readM 0).getLsbD 0 = true ∧ (∀ j < 64, (w1.readM 1).getLsbD j = false) ∧
    (let s := w1.onTile fun t => { t with m := t.m.commit 2 (2 ^ 63) }
     (s.readM 2).getLsbD 63 = true ∧ ∀ j < 63, (s.readM 2).getLsbD j = false) := by decide +kernel

/-- v28 and v30 bound; queue 0 with `n` entries and queue 6 with `k`. -/
def wBound (n k : Nat) : State := w1.onTile fun t => { t with
  bind := 0x5#4
  queues := vset (vset t.queues 0 ((List.range n).map qe)) 6 ((List.range k).map qe) }

/-- Channel 2 open with some messages. -/
def wChan (l : List Msg) : State :=
  (wx [(1, 1), (2, 5)] w0).onTile fun t => { t with channels := vset t.channels 2 ⟨true, l, 0⟩ }

/-- BoundRegistersAndQueueFedReduction: the queues empty, filled and full; the channel closed, open
and empty, and with a message, with a count of 0, 1 and 5. -/
theorem witness_queue_reduction :
    (wBound 1 7).ready [.v 28, .m 0] [.v 30] = true ∧ (wBound 1 7).tile.bound 28 = true ∧
    (wBound 1 7).tile.bound 30 = true ∧ (wBound 1 7).tile.frame = none ∧
    (wBound 1 7).tile.tasks.running = none ∧ vget (wBound 0 0).tile.queues 0 [] = [] ∧
    vget (wBound 1 7).tile.queues 0 [] = qe 0 :: [] ∧ (qe 0).arrived = true ∧
    (qe 0).faulted = false ∧ (vget (wBound 1 7).tile.queues 6 []).length < 8 ∧
    8 ≤ (vget (wBound 1 8).tile.queues 6 []).length ∧
    (wBound 1 7).ready [.v 28, .m 0] [.v 4] = true ∧ (wBound 1 7).tile.bound 4 = false ∧
    (let s := (wChan []).onTile fun t => { t with bind := 0x4#4 }
     s.ready [.x 1, .m 0, .v 30] [.v 30, .x 1] = true ∧ s.tile.bound 30 = true) ∧
    (wChan []).ready [.x 1, .m 0, .v 4] [.v 4, .x 1] = true ∧
    (wChan []).tile.bound 4 = false ∧ (wChan []).tile.frame = none ∧
    (w1.channel 2).isOpen = false ∧ ((wChan []).channel 2).isOpen = true ∧
    ((wChan []).channel 2).entries = [] ∧ (wChan []).readX 5 = 0 ∧ (wChan []).readX 1 = 1 ∧
    (wChan []).readX 2 ≠ 0 ∧ (wChan []).readX 2 ≠ 1 ∧
    ((wChan [⟨7, 9⟩]).channel 2).entries = ⟨7, 9⟩ :: [] := by decide +kernel

/-- The matrix array configured by MCFG with another word. -/
def wMx (x : Word) : State := wc (fun c => { c with mxcfg := x }) w1

/-- MatrixInstructionsAccumulate, MatrixResultsAreDrained: the shapes of reset agree; a tile
register with another number of bytes in a row; live entries of MMAG; SMODE 2 of an integer type
with a row counter that has room and one that has not; BP with rows of 64 and of 8 bytes. -/
theorem witness_matrix :
    w1.vectorUnit = true ∧ w1.tile.window = none ∧
    w1.ready [.t 0, .t 1, .acc 2, .v 4, .v 5] [.t 0, .t 1, .acc 2] = true ∧
    w1.ready [.acc 2] [.v 4, .v 5, .v 6, .v 7, .t 0, .acc 2] = true ∧
    (∀ j < 4, w1.tile.bound (4 + j) = false) ∧ w1.tile.rows 0 ≤ 64 ∧ w1.tile.colb 0 ≤ 64 ∧
    (let mx := w1.tile.cr.mxcfg
     kSteps mx (typeB mx) (w1.tile.colb 1) = kSteps mx (typeA mx) (w1.tile.colb 0) ∧
     typeA mx ≠ .bp ∧ smode mx ≠ 2 ∧ 8 ≤ (typeO mx).width ∧
     (∀ p ∈ liveEntries (w1.readVReg 4) (w1.readVReg 5), p.1 < w1.tile.rows 0 ∧ p.2 < 64)) ∧
    (let s := wc (fun c => { c with shape := vset c.shape 1 0x0840 }) w1
     let mx := s.tile.cr.mxcfg
     kSteps mx (typeB mx) (s.tile.colb 1) ≠ kSteps mx (typeA mx) (s.tile.colb 0)) ∧
    (let s := wMx 0x1C200#64
     let mx := s.tile.cr.mxcfg
     smode mx = 2 ∧ fpClass mx = false ∧
     kSteps mx (typeB mx) (s.tile.colb 1) = kSteps mx (typeA mx) (s.tile.colb 0) ∧
     (∀ i < s.tile.rows 0, s.tile.ksOf 2 i + kSteps mx (typeA mx) (s.tile.colb 0) ≤ 128) ∧
     (let t := { s.tile with ks := vset s.tile.ks 2 (Vector.replicate 64 65) }
      ∃ i < t.rows 0, 128 < t.ksOf 2 i + kSteps mx (typeA mx) (t.colb 0))) ∧
    (let s := wMx 0x182EE#64
     typeA s.tile.cr.mxcfg = .bp ∧ s.tile.colb 0 = 64 ∧
     (wc (fun c => { c with shape := vset c.shape 1 0x0840 }) s).tile.colb 1 ≠ 64) := by
  decide +kernel

/-- MatrixConfigurationAndMoves: words that MCFG takes and refuses, tile registers of 64 rows of 64
bytes and of 3 rows of 8, row numbers inside and outside. -/
theorem witness_matrix_moves :
    let s := wc (fun c => { c with shape := vset c.shape 2 0x0803 }) w1
    w1.tile.frame = none ∧ w1.tile.window = none ∧ w1.ready [.x 1, .t 3] [.x 2, .t 3] = true ∧
    mcfgOk 0x18899 = true ∧ mcfgOk 0x19899 = false ∧ 4 ≤ w1.tile.rows 3 ∧ 64 ≤ w1.tile.colb 3 ∧
    s.tile.rows 2 < 4 ∧ w1.tile.bound 4 = false ∧
    w1.ready [.x 5, .t 1, .t 2, .v 4] [.v 4, .t 1, .t 2] = true ∧
    w1.tile.rows 1 ≤ w1.tile.rows 2 ∧ w1.tile.colb 1 ≤ w1.tile.colb 2 ∧
    (w1.readX 5).toNat < w1.tile.rows 1 ∧ w1.tile.rows 1 ≤ (w1.readX 1).toNat ∧
    w1.tile.colb 1 / 2 ^ (0 : BitVec 2).toNat ≤ w1.tile.rows 2 ∧
    w1.tile.rows 1 * 2 ^ (0 : BitVec 2).toNat ≤ w1.tile.colb 2 ∧
    s.tile.rows 2 < s.tile.rows 1 := by decide +kernel

/-- A gang of tiles 0 and 1 of the row, led by tile 0, for one instruction. -/
def wGang (w : Word) : State := wx [(1, w)] w0

/-- The arrival of a tile. -/
def gArr (at_ : Nat) (o : Bool) : GangArrival := ⟨0x003, at_, encode (.mgang 0 1), o⟩

/-- The place of a hart of a joint gang. -/
def aPlace (k : Nat) : Place := ⟨1, 0, 0, k, k, 0, true⟩

/-- Tile 0 has arrived, and tile 1 too where `both`; the tiles are of one joint gang. -/
def wArrived (both : Bool) : State := { w1 with
  tile := { w1.tile with arrival := some (gArr 0 false), place := some (aPlace 0) }
  others := [(1, { Tile.reset 1 with
    arrival := if both then some (gArr 0 false) else none
    place := some (aPlace 1) })] }

/-- A window of tiles 0 and 1 is open, led by tile 0. -/
def wWindow : State := { w1 with
  tile := { w1.tile with window := some ⟨3, 0, 2⟩ }
  others := [(1, { Tile.reset 1 with window := some ⟨3, 0, 2⟩ })] }

/-- GangWindowsOpenActAndTimeOut: the first arrival, of a member and of one that is none; an arrival
waiting and one opened; both members there, and the one of a single tile; one missing, in time and
late; the leader and a tile that does not lead. -/
theorem witness_gangs :
    (wGang 3).ready [.x 1] [] = true ∧ (wGang 3).tile.arrival = none ∧
    (wGang 3).tile.window = none ∧ ((wGang 3).readX 1).getLsbD 0 = true ∧
    ((wGang 3).readX 1).getLsbD ((((wGang 3).readX 1).toNat / 256) % 8) = true ∧
    ((wGang 3).readX 1).getLsbD 11 = false ∧
    (wGang 3).arrivals ((wGang 3).jointMask 0 (((wGang 3).readX 1).setWidth 8)) = [] ∧
    ((wGang 2).readX 1).getLsbD ((wGang 2).cur % 8) = false ∧
    (gArr 0 true).opened = true ∧ (wArrived false).arg.tile = (wArrived false).cur ∧
    (wArrived true).tile.arrival = some (gArr 0 false) ∧
    (let s := wArrived true
     (∀ p ∈ maskMembers 3, (s.getTile (s.rowTile p)).arrival = some (gArr 0 false)) ∧
     s.gangPlaced 3 0 = true) ∧
    (let g := { gArr 0 false with word := 0x001 }
     let s := (wArrived false).onTile fun t => { t with arrival := some g }
     maskMembers (g.word.setWidth 8) = [0] ∧ s.gangPlaced 1 0 = true ∧
     (s.getTile (s.rowTile 0)).arrival = some g) ∧
    (let s := wArrived false
     (∃ p ∈ maskMembers 3, (s.getTile (s.rowTile p)).arrival = none) ∧ s.cc < 0 + 65536 ∧
     (gArr 0 false).word.getLsbD (s.cur % 8) = true) ∧
    0 + 65536 ≤ { wArrived false with cc := 65536 }.cc ∧
    wWindow.ready [] [.acc 2] = true ∧ wWindow.tile.window = some ⟨3, 0, 2⟩ ∧
    (⟨3, 0, 2⟩ : GangWindow).lead = wWindow.cur % 8 ∧
    (⟨3, 1, 1⟩ : GangWindow).lead ≠ w1.cur % 8 ∧
    (3 : BitVec 8).getLsbD (wWindow.cur % 8) = true ∧
    (∀ p ∈ maskMembers 3,
      (wWindow.getTile (wWindow.rowTile p)).window = some ⟨3, 0, 2⟩) := by
  decide +kernel

/-- The tile register or the bank is unsound. -/
def wUnsound (k : Nat) : State := w1.onTile fun t => { t with unsound := [k] }

/-- MatrixResultsAreDrained: MDRAIN in SMODE 0 and 1 of sound banks, and with the row scales
unsound; MPSUM in SMODE 2 of the INT class into free registers and into a bound one, and outside
it. -/
theorem witness_drains :
    w1.tile.unsound = [] ∧ smode 0x18899 = 0 ∧ fpClass 0x18899 = true ∧ smode 0x1A899 = 1 ∧
    smode 0x1C200 = 2 ∧ fpClass 0x1C200 = false ∧ 8 ≤ (typeO 0x18899).width ∧
    8 ≤ (typeO 0x1A899).width ∧ 8 ≤ (typeO 0x1C200).width ∧ (4 : VReg).toNat ≤ 28 ∧
    12 ∈ (wUnsound 12).tile.unsound ∧ 8 + (2 : BitVec 2).toNat ∉ (wUnsound 12).tile.unsound ∧
    (let s := w1.onTile fun t => { t with bind := 0x1#4 }
     s.tile.bound 28 = true ∧ s.ready [.acc 2] [.v 28, .v 29, .v 30, .v 31, .t 0, .acc 2] = true) := by
  decide +kernel

/-- The clauses on lost data of MatrixInstructionsAccumulate, MatrixResultsAreDrained,
MatrixConfigurationAndMoves and TileTransfersMoveRows: the tile register or the bank is unsound. -/
theorem witness_lost_data :
    (wUnsound 1).vectorUnit = true ∧ (wUnsound 1).tile.window = none ∧
    (wUnsound 1).compacts = [] ∧ (wUnsound 1).alone = true ∧
    (0 : TReg).toNat ∉ (wUnsound 1).tile.unsound ∧ (1 : TReg).toNat ∈ (wUnsound 1).tile.unsound ∧
    8 + (2 : BitVec 2).toNat ∈ (wUnsound 10).tile.unsound ∧
    (wUnsound 1).ready [.t 0, .t 1, .acc 2, .v 4, .v 5] [.t 0, .t 1, .acc 2] = true ∧
    (wUnsound 1).ready [.x 1, .t 1] [.x 2, .t 1] = true := by decide +kernel

/-- A record with six operands in registers. -/
def wOps (a b c d e : Word) : State := wx [(4, a), (5, b), (6, c), (7, d), (2, e)] w0

/-- EngineCommandsEnterTheirSlots: operands at the ends of what each command accepts, and refused
ones; free slots and full ones. -/
theorem witness_commands :
    (wOps 0 0 0 0 0).who = .eh ∧ (wOps 0 0 0 0 0).alone = true ∧
    (wOps 0 0 0 0 0).tile.late = [] ∧
    (wOps 0 0 0 0 0).ready [.x 4, .x (4 + 1), .x (4 + 2), .x (4 + 3), .x 2] [.x 9] = true ∧
    ((wOps 0 0 0 0 0).tile.onEngine 0).length < 2 ∧
    2 ≤ ((w1.onTile fun t => { t with cmds := [aCmd, aCmd] }).tile.onEngine 0).length ∧
    ringRefused 0 [0, 0, 64, 0] (2 ^ 32 + 1) = false ∧
    collectiveRefused true [0x2000, 0x3000, 0x20003, 0] = false ∧
    collectiveRefused false [0x2000, 0x3000, 3, 0] = false ∧
    f32Refused 0x80000000 = false ∧ f32Refused 0x7F7FFFFF = false ∧ f32Refused 0x7F800000 = true ∧
    (0x140 : Word) &&& ~~~0x17F#64 = 0 := by decide +kernel

/-- A record of the inbox. -/
def aRec : Record := ⟨1, 2, 3, 4⟩

/-- InboxAndHeaderWordsAreRead: a header at 0x2000; an inbox empty and filled; words that INBCFG
takes, at both ends of THRESH, and refuses; a user-level handler and none. -/
theorem witness_inbox :
    w1.ready [.x 1, .x 2] [.x 3] = true ∧ (w1.readX 1).toNat % 128 = 0 ∧
    passes w1 { kind := .load, align := 0 } (w1.readX 1 + 8 * (w1.readX 2 &&& 15)) 0x2028 = true ∧
    plain w1 0x2028 = true ∧ w1.ready [] [.x 8, .x (8 + 1), .x (8 + 2), .x (8 + 3)] = true ∧
    w1.tile.inbox = [] ∧ (w1.onTile fun t => { t with inbox := [aRec] }).tile.inbox = aRec :: [] ∧
    (0x0101 : Word) &&& ~~~0xFF07#64 = 0 ∧ (0x2007 : Word) &&& ~~~0xFF07#64 = 0 ∧
    (0x2007 : Word).toNat / 256 % 256 = 32 ∧ (0x8 : Word) &&& ~~~0xFF07#64 ≠ 0 ∧
    (0x2009 : Word).getLsbD 0 = true ∧ (0x2009 : Word).toNat / 2 % 4 = 0 ∧
    w1.drained = true ∧ w1.tile.inh = false ∧ w1.tile.cr.framepos.getLsbD 63 = false ∧
    (wc (fun c => { c with inbctl := 0x114 }) w1).tile.inh = true := by decide +kernel

/-- A fill of 70 bytes from 0x2030 on. -/
def aFill : Command := ⟨0, 2, 0, 0, 0, 2, [0x2030, 0xAB, 70, 0], 0, true, true, 0, 0, [], 0, 0, 0,
  none, 0, 0, [], false, [], 0, none, 0, none, 0, 0⟩

/-- The same, ended. -/
def aFillDone : Command := { aFill with ended := some ⟨0, 0, 0, 0, none⟩ }

/-- A collective of gang selection 0, under way since 0. -/
def aColl : Command := { aFill with engine := 1, kind := 4, ops := [0x2000, 0x3000, 0x20003, 0] }

/-- Tile 0 with commands, and tile 1 of the same gang without. -/
def wEng (l : List Command) : State := { w1 with
  tile := { w1.tile with cmds := l, place := some (aPlace 0) }
  others := [(1, { Tile.reset 1 with place := some (aPlace 1) })] }

/-- Nothing holds an engine's accesses to the line up. -/
def unheld (s : State) (g : EngineAgent) (la : Nat) : Bool :=
  (s.engineHeld g true none la).isNone && (s.engineHeld g false none la).isNone

/-- An engine's access passes at a local address. -/
def engOk (s : State) (n : Nat) (c : Command) (f : Form) (va la : Nat) : Bool :=
  (s.tableStop 2048 c.ctx (s.getTile n).cr.trbase c.level va).isNone &&
  unheld s (s.agent n c) la &&
  match s.engineCheck n c f va with
  | .ok x => s.isLocal x.pa && localAddr x.pa == la && memoryAt la && s.uncached (lineOf la)
  | .error _ => false

/-- A copy of 70 bytes from 0x3050 to 0x2000, and one of two rows of 64 bytes, its destination rows
going down, at its second row. -/
def aCopy : Command := { aFill with kind := 0, ops := [0x2000, 0x3050, 70, 0] }
def aCopyD : Command := { aFill with
  kind := 1, row := 1, desc := [0x2080, 0x3010, 64, 2, BitVec.ofInt 64 (-128), 0x40, 0, 0] }

/-- A rotation by one of the first 64 bytes of segment 0 into the next 64, of the ring positions 0
and 1. -/
def aRing : Command := { aFill with kind := 3, ops := [0, 64, 64, 0], ctl := 2 ^ 32 + 3 }

/-- An ALLRED of one I32 sum, and a BCASTC of 4 bytes from member 1, at two members. -/
def aRed (kind : Nat) (ctl : Word) (k : Nat) : Command := { aFill with
  engine := 1, kind := kind, ctl := ctl
  ops := [BitVec.ofNat 64 (0x2000 + 64 * k), BitVec.ofNat 64 (0x3000 + 64 * k), ctl, 0] }

/-- Tiles 0 and 1 of one gang with commands, segment 0 of both in scratchpad use. -/
def wPair (c d : Command) : State :=
  let t (n : Nat) (c : Command) (t : Tile) : Tile :=
    { t with cmds := [c], place := some (aPlace n), cr := { t.cr with segmode := 1 } }
  { w1 with tile := t 0 c w1.tile, others := [(1, t 1 d (Tile.reset 1))] }

/-- EngineStepsMoveAndComplete: a fill at its first sector and at its last; a completion to post;
a command that has not begun, in its turn and before it; a collective whose other member has not
issued, in time and late; a copy and a row whose sources lie in two sectors; a rotation, and the
collectives of two members, reductions of each kind. -/
theorem witness_engine_steps :
    (wEng [aFill]).alone = true ∧ (wEng [aFill]).arg.tile = 0 ∧
    (wEng [aFill]).current 0 0 = some aFill ∧ 0 < (aFill.ops.getD 2 0).toNat ∧
    aFill.begun = true ∧
    (let c := { aFill with begun := false }
     (wEng [c]).current 0 0 = some c ∧ (wEng [c]).turnDue 0 0 = true ∧
     (wEng [c]).behindArea 0 0 = false ∧
     { wEng [c] with
       turns := [(((wEng [c]).engineOf 0 0).1, 0)]
       others := [(1, { Tile.reset 1 with cmds := [c], place := some (aPlace 1) })] }.turnDue 0 0 =
         false) ∧
    engOk (wEng [aFill]) 0 aFill engWrite 0x2030 0x2030 = true ∧
    engOk (wEng [{ aFill with pos := 16 }]) 0 { aFill with pos := 16 } engWrite 0x2040 0x2040 = true ∧
    ((wEng [aFillDone]).getTile 0).onEngine 0 = aFillDone :: [] ∧
    (wEng [aFillDone]).current 0 0 = none ∧ ((wEng [aFillDone]).getTile 0).inbox.length < 32 ∧
    ((wEng [aFillDone]).getTile 0).cr.inbcnta.getLsbD 0 = false ∧
    (let s := { wEng [aColl] with arg := { EventArg.none with n₁ := 1 } }
     ((s.getTile 0).cmds.find? fun c => c.grouped && c.engine == 1) = some aColl ∧
     s.arg.flag = false ∧ s.members 0 0 = [0, 1] ∧
     s.issued [0, 1] aColl.setKey = [(0, aColl)] ∧ s.gangStopped 0 = false ∧
     s.gangStopped 1 = false ∧ s.cc < aColl.since + 2 ^ 24 ∧
     aColl.since + 2 ^ 24 ≤ { s with cc := 2 ^ 24 }.cc) := by decide +kernel

/-- The same statement, the copies: the sector of the destination, and the two of the source. -/
theorem witness_copies :
    (wEng [aCopy]).alone = true ∧ (wEng [aCopy]).current 0 0 = some aCopy ∧ aCopy.buffer = [] ∧
    aCopy.begun = true ∧ min 64 (70 - aCopy.pos) = 64 ∧ min 64 (64 - 0x3050 % 64) = 48 ∧
    engOk (wEng [aCopy]) 0 aCopy engWrite 0x2000 0x2000 = true ∧
    engOk (wEng [aCopy]) 0 aCopy engRead 0x3050 0x3050 = true ∧
    engOk (wEng [aCopy]) 0 aCopy engRead 0x3080 0x3080 = true ∧
    (wEng [aCopyD]).current 0 0 = some aCopyD ∧ aCopyD.desc ≠ [] ∧ aCopyD.row < 2 ∧
    engOk (wEng [aCopyD]) 0 aCopyD engWrite 0x2000 0x2000 = true ∧
    engOk (wEng [aCopyD]) 0 aCopyD engRead 0x3050 0x3050 = true ∧
    engOk (wEng [aCopyD]) 0 aCopyD engRead 0x3080 0x3080 = true := by decide +kernel

/-- The same statement, the rotation: both members have issued. -/
theorem witness_ring :
    (let s := wPair aRing aRing
     let ms := s.ringTiles 0 (s.ringClosure 0 32 aRing.mask)
     let l := s.matched ms 0 fun c => c.isRing && c.awaits
     s.alone = true ∧ s.current 0 0 = some aRing ∧ aRing.begun = true ∧ aRing.isRing = true ∧
     aRing.awaits = true ∧ ms = [0, 1] ∧ l = [(0, aRing), (1, aRing)] ∧
     samePlace (s.placeOf 0) (s.placeOf 0) = true ∧ samePlace (s.placeOf 0) (s.placeOf 1) = true ∧
     (s.getTile 0).scratch 0 = true ∧ (s.getTile 1).scratch 0 = true) := by decide +kernel

/-- The operations of an ALLRED with a type of each class, of 4 bytes. -/
def redCtls : List Word := [0x20003, 0x80003, 0x120003, 0x180003, 0x220003, 0x280003, 0x320003,
  0x420003, 0x520003]

/-- The same statement, the collectives: both members have issued; each operation of ALLRED, an
integer and a floating-point type; a root. -/
theorem witness_collectives :
    (redCtls.map (fun w : Word => ((4 : Nat), w)) ++ [((5 : Nat), (0x100000003 : Word))]).all (fun p : Nat × Word =>
      let s := wPair (aRed p.1 p.2 0) (aRed p.1 p.2 1)
      let s := { s with arg := { s.arg with n₁ := 1 } }
      let l := s.matchedColls 0 0
      s.alone && decide (s.current 0 1 = some (aRed p.1 p.2 0)) && !s.farMembers 0 0 &&
      !(s.getTile 0).cr.inbcnta.getLsbD 0 && s.arg.n₁ == 1 && !s.arg.flag &&
      decide (s.members 0 0 = [0, 1]) &&
      decide (l = [(0, aRed p.1 p.2 0), (1, aRed p.1 p.2 1)]) && (aRed p.1 p.2 0).gsel == 0 &&
      l.all fun q => q.2.level == 2 && q.2.buffer.isEmpty && q.2.done == 0 &&
        engOk s q.1 q.2 engRead (q.2.ops.getD 0 0).toNat (0x2000 + 64 * q.1) &&
        engOk s q.1 q.2 engWrite (q.2.ops.getD 1 0).toNat (0x3000 + 64 * q.1)) = true ∧
    regionOf 0x2000 = .hbm ∧ regionOf 0x3040 = .hbm ∧
    (ElemType.ofCode 2).map (·.isFp) = some false ∧ (ElemType.ofCode 8).map (·.isFp) = some true := by
  decide +kernel

/-- A line of a search tree stands at its address. -/
def treeOk (s : State) (g : EngineAgent) (va : Word) (la : Nat) : Bool :=
  (s.tableStop 2048 g.ctx g.trbase g.level va.toNat).isNone && unheld s g la &&
  match s.treeCheck g va.toNat with
  | .ok x => localAddr x.pa == la && decide (la % 128 = 0) && s.uncached la
  | .error _ => false

/-- A Burin command on the header at 0x2000: kind, first pass, cursor and descents. -/
def aBurin (k pos : Nat) (cursor : Word) (h : List Word) (ds : List Descent) : Command :=
  ⟨2, k, 0, 0, 0, 2, [0x2000, if k = 3 then 0x2080 else 1, 0x4000, 1], 0, true, true, pos, 0, h,
    cursor, 0, 0, none, 0, 0, [], false, ds, 0, none, 0, none, 0, 0⟩

/-- A header at 0x2000, valid, with batches of one, whose root is 0x2080, and one descent. -/
def wTree (l : List Command) (word6 : Nat) : State :=
  let s := { w1 with tile := { w1.tile with cmds := l } }
  ((s.writeMem 0 0x2000 8 0x2080).writeMem 0 0x2010 8 0x8001).writeMem 0 0x2030 8 word6

/-- A descent that stands at the root. -/
def aDescent (o : Option DescentEnd) (e : Option Word) : Descent :=
  ⟨[], 0x2080, 0, 0, 0, 0, none, o, [], false, 0, none, e, false, none⟩

/-- BurinStepsChangeTheTree: for each clause a command in its phase on a valid header at 0x2000 and
the node at 0x2080. -/
theorem witness_burin :
    (let s := wTree [aBurin 2 0 0 [] []] 1
     let c := aBurin 2 0 0 [] []
     let h := s.lineWords 0x2000 16
     s.alone = true ∧ s.current s.arg.tile 2 = some c ∧
     treeOk s (s.agent 0 c) c.header 0x2000 = true ∧
     treeOk s (s.agent 0 c) 0x2080 0x2080 = true ∧ headerValid h = true ∧
     (h.getD 2 0).toNat % 128 = 1 ∧ f32Refused ((h.getD 1 0).setWidth 32) = false ∧
     f32Refused ((h.getD 1 0 >>> 32).setWidth 32) = false ∧ h.getD 6 0 ≠ 0 ∧ h.getD 4 0 = 0 ∧
     1 ≤ (c.ops.getD 1 0).toNat ∧ s.walkersBusy (dieOf 0) < 16 ∧
     nodeState (s.lineWords 0x2080 4) = 0 ∧ nodeVl (s.lineWords 0x2080 4) < 65535 ∧
     (s.lineWords 0x2080 4).getD 3 0 = 0 ∧ nodeState (s.lineWords 0x2080 4) = 0 ∧
     (let c' := aBurin 2 0 0 h [aDescent (some .leaf) (some 0)]
      c'.descents.length ≤ c'.batch ∧ c'.last = c'.descents.length ∧
      (s.getTile 0).inbox.length < 32 ∧ (s.getTile 0).cr.inbcnta.getLsbD 0 = false) ∧
     (aBurin 3 2 0 [] []).children < (aBurin 3 2 0 [] []).pos ∧
     (aBurin 4 0 0x2080 [] []).cursor ≠ 0 ∧ (aBurin 8 1 0 [] []).cursor = 0 ∧
     (∀ k ∈ [3, 4, 8], (wTree [aBurin k 0 0x2080 [] []] 1).current 0 2 =
       some (aBurin k 0 0x2080 [] []))) ∧
    (let s := { wTree [] 0 with reclaims := [⟨0, 0, 2, 0, 0x2000, 0, [(0x2080, 3)], none⟩] }
     s.alone = true ∧ treeOk s ⟨0, 0, 2, 0, 0, 0⟩ 0x2000 0x2000 = true ∧
     treeOk s ⟨0, 0, 2, 0, 0, 0⟩ 0x2080 0x2080 = true ∧ (s.lineWords 0x2000 16).getD 4 0 = 0 ∧
     ∀ p ∈ s.tiles, p.2.cmds = []) := by decide +kernel

/-- A FRAME of three iterations over two words, with the D field stepping by 2. -/
def frameW : Word32 := encode (.frame 0 1 2 2 1 0 0)

/-- The instruction words at 0x1000 and after. -/
def wCode (l : List Word32) : State :=
  (List.range l.length).foldl (fun s k => s.writeMem 0 (0x1000 + 4 * k) 4 (l.getD k 0).toNat) w1

def vaddW : Word32 := encode (.vadd 0 1 2 3 0 .i32)

/-- A replay at its word `a` of two in iteration `i` of three. -/
def aRun (i a : Nat) : FrameRun := ⟨0x1000, frameW, [vaddW, vaddW], i, a, 5, 0⟩

def wReplay (i a : Nat) : State :=
  { w1 with who := .vs, tile := { w1.tile with frame := some (aRun i a) } }

/-- The word at an address is fetched. -/
def fetches (s : State) (a : Word) (w : Word32) : Bool := isOk (s.fetchWord a) w

/-- CompletingMovesTheUnitOn, FrameCapturesAndReplaysItsWindow: words that may be captured and one
that may not; a replay inside its window, at the end of it and at its end. -/
theorem witness_frames :
    (wReplay 0 0).tile.frame = some (aRun 0 0) ∧ (aRun 0 0).at_ + 1 < (aRun 0 0).words.length ∧
    (aRun 0 1).words.length ≤ (aRun 0 1).at_ + 1 ∧
    (aRun 0 1).iter < frameW.toNat / 2 ^ 10 % 256 ∧ frameW.toNat / 2 ^ 10 % 256 ≤ (aRun 2 1).iter ∧
    (let s := wCode [frameW, vaddW, vaddW]
     s.tile.frame = none ∧ s.tile.reqs = [] ∧ s.who = .eh ∧ s.injected = [] ∧
     fetches s (s.pc + BitVec.ofNat 64 (4 * 1)) vaddW = true ∧
     fetches s (s.pc + BitVec.ofNat 64 (4 * 2)) vaddW = true ∧
     s.tile.frameOk frameW vaddW = true ∧ s.tile.frameOk frameW (encode (.addi 0 1 2 3)) = false) ∧
    (wReplay 2 1).tile.run = .running ∧
    isOk (decodeWord (frameWord frameW vaddW 2)) (.vadd 0 5 2 3 0 .i32) = true := by
  decide +kernel

/-- ControlRegistersAreReadAndWritten, PrivilegeAndUnitsAreChecked: a register with levels, one
without a write level, numbers of no register, below and above the level; writes of SEGMODE of one
and of two segments, with `defer` and without; the sequencers. -/
theorem witness_control_registers :
    w1.drained = true ∧ w1.ready [.x 1] [.x 2] = true ∧ crLevels 0x45 = some (2, some 2) ∧
    crLevels 0x00 = some (0, none) ∧ crLevels 0x20 = some (1, some 1) ∧
    crLevels 0x01 = some (0, some 1) ∧ crLevels 0x27 = none ∧ crLevels 0x46 = none ∧
    w1.tile.level = 2 ∧ (wApp w1).tile.level = 0 ∧ (wApp w1).drained = true ∧
    w1.pins = [] ∧ w1.tile.cache = [] ∧ w1.tile.feWaits = [] ∧
    (w1.readX 1).getLsbD (0 / 0x10000) = w1.tile.cr.segmode.getLsbD (0 / 0x10000) ∧
    (w1.readX 2).getLsbD (0x20000 / 0x10000) ≠ w1.tile.cr.segmode.getLsbD (0x20000 / 0x10000) ∧
    (wDefer w1).nextSegment 5 = some 0 ∧ (wDefer w1).nextSegment 4 = none ∧ w1.nextSegment 5 = none ∧
    w1.poisoned = [] ∧ w1.injected = [] ∧
    (wApp w1).ready [.x 1, .x 2] [.x 3, .x (3 + 1), .x (3 + 2)] = true ∧
    ((wApp w1).settle.readX 2).toNat / 16 % 4 ≠ 3 ∧ ((wApp w1).settle.readX 1).toNat % 8 < 5 ∧
    (wWho .as w1).who = .as ∧ (wWho .ss w1).who = .ss := by decide +kernel

/-- ExceptionsSaveAndEnterTheHandler: a cause delegated below FIRM, one that is not, and FIRM. -/
theorem witness_exceptions :
    let s := wc (fun c => { c with tdeleg := 0x2 }) (wApp w1)
    s.who = .eh ∧ Cause.illop ≠ .waits ∧ s.tile.level ≠ 2 ∧ s.tile.cr.tdeleg.getLsbD Cause.illop.code = true ∧
    s.tile.cr.tdeleg.getLsbD Cause.priv.code = false ∧ w1.tile.level = 2 ∧ s.drained = true := by
  decide +kernel

/-- A hart at USER with the interrupts of IPEND given, all enabled, TIMER far away. -/
def wInt (pend ctl : Word) : State :=
  wc (fun c => { c with ipend := pend, ienable := 0x1FE, inbctl := ctl, stvec := 0x9000 }) (wApp w1)

def aDeferred : Deferred := ⟨6, 0x2000, some 7⟩

/-- InterruptsAndDeferredTrapsAreTaken: a deferred trap; an interrupt below 3 and one above; INBOX
with ULI; a WFI that waits. -/
theorem witness_interrupts :
    ((wInt 2 0x104).getTile 0).run = .running ∧ ((wInt 2 0x104).focus 0).served = false ∧
    (wInt 2 0x104).arg.tile = 0 ∧ (wInt 2 0x104).tile.deferred = [] ∧
    (wInt 2 0x104).tile.dueInterrupt 0 = some 1 ∧
    (wInt 0x100 0x104).tile.dueInterrupt 0 = some 8 ∧
    (let s := (wInt 0 0x107).onTile fun t => { t with inbox := [aRec] }
     s.tile.dueInterrupt 0 = some 3 ∧ s.tile.cr.inbctl.getLsbD 1 = true) ∧
    ((wInt 2 0x104).onTile fun t => { t with deferred := [aDeferred] }).tile.deferred =
      aDeferred :: [] ∧
    ((wInt 2 0x104).onTile fun t => { t with
      eh := { t.eh with begun := some .wfi } }).tile.eh.begun = some .wfi := by decide +kernel

/-- ReturnWaitPauseAndHalt: SYS and FIRM, no replay recorded and one; an interrupt due and none;
each unit. -/
theorem witness_returns :
    w1.tile.level = 2 ∧ w1.tile.cr.status.toNat / 64 % 4 ≠ 3 ∧ w1.tile.frame = none ∧
    (wc (fun c => { c with status := 4 }) w1).tile.level = 1 ∧
    w1.tile.cr.framepos.getLsbD 63 = false ∧ w1.drained = true ∧ w1.gangs = [] ∧
    w1.settle.tile.pending w1.gtc &&& w1.tile.cr.ienable = 0 ∧
    (wInt 2 0).settle.tile.pending (wInt 2 0).gtc &&& (wInt 2 0).tile.cr.ienable ≠ 0 ∧
    (let s := wc (fun c => { c with framepos := 0x8010000000001000 }) (wCode [frameW, vaddW, vaddW])
     s.tile.cr.framepos.getLsbD 63 = true ∧ s.injected = [] ∧ fetches s.settle 0x1000 frameW = true ∧
     isOk (decodeWord frameW) (.frame 0 1 2 2 1 0 0) = true ∧
     s.choice.walks = false ∧ isOk (s.settle.captureWindow 0x1000 frameW) [vaddW, vaddW] = true ∧
     s.tile.cr.framepos.toNat / 2 ^ 48 % 16 < 2 ∧
     s.tile.cr.framepos.toNat / 2 ^ 52 % 256 ≤ frameW.toNat / 2 ^ 10 % 256) ∧
    (wWho .as w1).drained = true ∧ (wWho .ss w1).drained = true := by decide +kernel

/-- A message for channel 2 of hart 1 of this device. -/
def aInj (id : Nat) : InjEntry :=
  { msg := ⟨BitVec.ofNat 64 (2 ^ 63), 7⟩, dest := BitVec.ofNat 64 (2 * 2 ^ 23 + 1), marker := false,
    id := id, sent := none, retryAt := none, paired := false, orphan := false, ctx := 0 }

/-- Tile 0 with entries in its injection queue; tile 1 runs with channel 2 as given. -/
def wInj (l : List InjEntry) (c : Channel) : State := { w1 with
  tile := { w1.tile with inj := l }
  others := [(1, { Tile.reset 1 with
    run := .running, channels := vset (Tile.reset 1).channels 2 c })] }

/-- MessagesEnterTheInjectionQueue: room and none; a target on this device and an absent one. -/
theorem witness_sends :
    w1.ready [.x 1, .x 2, .x (2 + 1), .x (2 + 2), .x (2 + 3), .v 4] [] = true ∧
    w1.tile.bound 4 = false ∧ ¬16 ≤ w1.tile.inj.length ∧ w1.drained = true ∧
    16 ≤ (wInj (List.replicate 16 (aInj 1)) Channel.closed).tile.inj.length ∧
    w1.targetFault 1 = none ∧ w1.targetFault 2048 = some 2 ∧
    w1.targetFault (w1.launchId ((w1.readX 1).setWidth 23)) ≠ none ∧
    w1.targetFault (w1.launchId ((w1.readX 2).setWidth 23)) = none := by decide +kernel

/-- The hart with channel 5, the number in x2, as given. -/
def wRecv (o : Bool) (l : List Msg) : State :=
  w1.onTile fun t => { t with channels := vset t.channels 5 ⟨o, l, 0⟩ }

def aRemote (w : Bool) : RemoteReq :=
  ⟨0, w, 0x2000, (Xlat.words ⟨0x2000, false, false, none⟩ 64 0 9), 5, 1, 0, 0, false, none, 0⟩

/-- ReceivesTakeTheOldestMessage: a message, none, a closed channel; a request under way on it. -/
theorem witness_receives :
    (wRecv true []).ready [.x 2] [.x 8, .x (8 + 1), .x (8 + 2), .x (8 + 3), .x (8 + 4), .v 4] =
      true ∧ (wRecv true []).tile.bound 4 = false ∧ ((wRecv true []).readX 2).toNat % 8 = 5 ∧
    ((wRecv true []).channel 5).isOpen = true ∧ ((wRecv true []).channel 5).entries = [] ∧
    ((wRecv true [⟨7, 9⟩]).channel 5).entries = ⟨7, 9⟩ :: [] ∧
    ((wRecv false []).channel 5).isOpen = false ∧ (wRecv true []).tile.remote = [] ∧
    (aRemote false).chan = 5 := by decide +kernel

/-- A load of device 7. -/
def farReq : Req where
  id := 3
  unit := .eh
  engine := none
  stage := .sent
  kind := .load
  accs := [⟨7 * 2 ^ 44, 8, 0, false, false, 0, false⟩]
  dest := .x 9 8 false
  va := 0x2000
  ctx := 0
  level := 0
  mode := w1.tile.fpMode
  acquire := none
  flags := 0
  result := []
  error := none
  parked := none
  arrival := 0
  sent := 0
  snooped := false
  paired := false
  answered := false

/-- RemoteRowsAreReadAndWritten: room, none, a closed channel, an acquire whose response has not
come; a read and a write under way. -/
theorem witness_remote_rows :
    (let s := wRecv true []
     s.ready [.x 1, .x 2, .v 4] [] = true ∧
     passes s { kind := .load, align := 64, net := true } (s.readX 1) 0x2000 = true ∧
     passes s { kind := .store, align := 64, net := true } (s.readX 1) 0x2000 = true ∧
     (s.channel 5).entries.length + (s.channel 5).reserved < 16 ∧ s.acquiring = false ∧
     (s.onTile fun t => { t with reqs := [{ farReq with acquire := some 1 }] }).acquiring = true ∧
     16 ≤ ((wRecv true (List.replicate 16 ⟨7, 9⟩)).channel 5).entries.length + 0) ∧
    (∀ w, let s := (wRecv true []).onTile fun t => { t with remote := [aRemote w] }
      (s.onTile fun t => { t with remote := [] }).alone = true ∧ s.tile.remote = [aRemote w] ∧
      s.arg.tile = s.cur ∧ s.arg.n₁ = (aRemote w).id ∧ s.arg.flag = false ∧
      s.tile.reqs = [] ∧ (aRemote w).parked = none ∧ plain s 0x2000 = true ∧
      (aRemote w).chan < 8) := by decide +kernel

/-- An event's argument for tile 0. -/
def ev (n₁ n₂ n₃ : Nat) (f : Bool) : EventArg :=
  { EventArg.none with n₁ := n₁, n₂ := n₂, n₃ := n₃, flag := f }

/-- MessagesArriveOrAreRefused: a message of this device for a channel with room, a full one, a
closed one, for a hart of a gang that is being saved, and for no hart; a retry early and due. -/
theorem witness_arrivals :
    (let s := wInj [aInj 3] ⟨true, [], 0⟩
     s.alone = true ∧ s.arg.tile < 2048 ∧ s.arg.flag = false ∧ s.arg.n₂ = 0 ∧
     (s.getTile 0).inj[s.arg.n₁]? = some (aInj 3) ∧ (aInj 3).target / 2048 = s.device ∧
     (s.getTile 0).mayDepart (aInj 3) = true ∧ s.receiver (aInj 3).target = some 1 ∧
     s.gangOf (aInj 3).target = none ∧ (s.getTile 1).loading = false ∧
     ((s.modTile 1 fun t => { t with loading := true }).getTile 1).loading = true ∧
     (aInj 3).msg.hdr.toNat / 2 ^ 48 % 256 = (s.getTile 1).tenant ∧ (aInj 3).chan = 2 ∧
     (vget (s.getTile 1).channels 2 Channel.closed).isOpen = true ∧ (aInj 3).orphan = false) ∧
    (vget ((wInj [aInj 3] Channel.closed).getTile 1).channels 2 Channel.closed).isOpen = false ∧
    (let s := { wInj [aInj 3] ⟨true, [], 0⟩ with
       launches := [Launch.new 1 4 2 [] none none none 0 0], gangs := [⟨1, 0, .stopping, 0, 0, [1], [],
         0, 0, 0, [], 0, false, false, 0, []⟩] }
     let s := s.modTile 1 fun t => { t with place := some (aPlace 1) }
     s.tileOfLaunch (aInj 3).target = some 1 ∧
     ∃ g, s.gangOf (aInj 3).target = some g ∧ g.state = .stopping) ∧
    w1.receiver 1 = none ∧ (5 ≤ { w1 with cc := 5 }.cc) ∧ w1.cc < 5 := by decide +kernel

/-- The same statement, requests to another device: a message refused, for now or for good, or
lost; a load refused or lost. -/
theorem witness_refusals :
    (let e := { aInj 3 with dest := BitVec.ofNat 64 (2 * 2 ^ 23 + 2048), sent := some 0 }
     let s := { wInj [e] Channel.closed with arg := ev 3 2 0 false }
     s.compacts = [] ∧ s.arg.tile = s.cur ∧ s.inPort s.arg.n₁ = false ∧
     s.tile.inj.find? (·.id == 3) = some e ∧ e.target / 2048 ≠ s.device ∧ e.orphan = false ∧
     e.retryAt = none ∧ s.cc < 0 + 2 ^ 24 ∧ 0 + 2 ^ 24 ≤ { s with cc := 2 ^ 24 }.cc) ∧
    (let s := { w1.onTile (fun t => { t with reqs := [farReq] }) with arg := ev 3 2 0 false }
     s.tile.inj = [] ∧ s.tile.remote = [] ∧ farReq.id = s.arg.n₁ ∧
     s.farDevices farReq.accs ≠ [] ∧ farReq.sent + 2 ^ 24 ≤ { s with cc := 2 ^ 24 }.cc) ∧
    (∀ k t, farReq.dest ≠ .queue k t) := by
  refine ⟨by decide +kernel, by decide +kernel, ?_⟩
  intro k t h
  cases h

/-- A packet of a tenant at a port, from input 3, of device 1 for device 7. -/
def aPacket (tn age at_ : Nat) : Packet where
  cls := .req
  tenant := tn
  input := 3
  request := true
  tile := 0
  req := 0
  source := deviceAt [1, 0, 0, 0]
  target := 7
  mid := none
  valiant := false
  late := []
  dim := 0
  one := false
  inVc := 0
  rows := 3
  age := age
  waited := 0
  arrived := at_

/-- The next hop of a packet is a port. -/
def goes (s : State) (k : Packet) (p : Nat) : Bool :=
  match s.route k with
  | .through j _ => j == p
  | .here | .stopped _ => false

/-- Device 0 with a neighbour behind port 0, which carries tenant 0, and packets there. -/
def wPort (l : List Packet) : State := { w1 with
  peers := [deviceAt [1, 0, 0, 0]]
  ports := vset w1.ports 0 { Port.reset with tenants := 1, waiting := l } }

/-- RoutersAndLinksMoveTraffic: a packet of a tenant that the port carries, and one of a tenant that
it does not; one before a blocked port, one that is refused, one at its target; a packet that comes
from a link, with room and without; ages 16 and less; a port that retrains; rows at the ends of each
stage; an audit that agrees and one that does not. -/
theorem witness_routers :
    (wPort [aPacket 0 3 0]).arg.n₁ = 0 ∧
    ((wPort [aPacket 0 3 0, aPacket 0 16 4]).port 0).winner = some (aPacket 0 16 4) ∧
    ((wPort [aPacket 1 3 0]).port 0).winner = some (aPacket 1 3 0) ∧
    ((wPort []).port 0).retraining = false ∧ ((wPort []).port 0).tenants.getLsbD 0 = true ∧
    ((wPort []).port 0).tenants.getLsbD 1 = false ∧ (aPacket 0 3 0).input ≠ ownInput ∧
    (wPort []).arg.flag = false ∧ ((wPort []).port 0).waiting = [] ∧
    (wPort []).blockedPort 0 = false ∧
    (let s := { wPort [aPacket 0 3 0] with peers := [] }
     (s.port 0).winner = some (aPacket 0 3 0) ∧ s.blockedPort 0 = true) ∧
    goes (wPort []) ((wPort []).ownPacket .rsp false none 0 0 0 (aPacket 0 3 0).source) 0 = true ∧
    { aPacket 0 3 0 with target := 0 }.target = (wPort []).device ∧
    (let s := { wPort [] with arg := { ev 0 0 0 true with w₂ := BitVec.ofNat 64 (deviceAt [1, 0, 0, 0]) } }
     let k := s.transitPacket s.arg
     ((s.port 0).up && !(s.port 0).retraining && s.hasRows 0 k.inVc k.rows) = true ∧
     goes s k 0 = true ∧ s.route (s.transitPacket (ev 0 0 0 true)) = .here) ∧
    (let s := (wPort []).setPort 0 fun x => { x with up := false }
     (s.port 0).up = false) ∧
    PacketClass.rank .req < PacketClass.rank .ctl ∧
    (∀ r ∈ [(256, 208), (256, 209), (256, 214), (256, 215), (256, 226), (256, 227), (256, 232)],
      16 ≤ r.1 - r.2) ∧
    bankExists 0x3000 = true ∧ 0x3000 / 4096 = 3 ∧ 3 + 5 = 8 ∧ 3 + 4 ≠ 8 := by decide +kernel

/-- A signing descriptor at 0x2000, of one member in domain 3, and its member table at 0x2080: tile
0, segment 1, backed at 0x30000. -/
def wSign : State :=
  let s := w1.onTile fun t => { t with place := some { aPlace 0 with domains := 0x8 } }
  ((((s.writeMem 0 0x2000 8 (3 * 2 ^ 48 + 9)).writeMem 0 0x2008 8 1).writeMem 0 0x2010 8
    0x2080).writeMem 0 0x2080 8 (2 ^ 24)).writeMem 0 0x2090 8 0x30000

/-- What its CSIGN reads. -/
def aSigning : Signing where
  desc := ⟨[BitVec.ofNat 64 (3 * 2 ^ 48 + 9), 1, 0x2080] ++ List.replicate 13 0⟩
  table := [2 ^ 24, 0, 0x30000, 0]
  image := []
  entry := ⟨2 ^ 24, 0, 0x30000, 0⟩
  index := 0
  twin := false

/-- The words are read, and the state stays. -/
def reads8 (s : State) (va : Word) (n : Nat) (l : List Word) : Bool :=
  match s.readWords va n with
  | (z, .ok x) => decide (z = s) && decide (x = l)
  | (_, .error _) => false

/-- CompactsSignAndDomainsSynchronise: a fresh CSIGN. -/
theorem witness_csign :
    wSign.drained = true ∧ wSign.ready [.x 1, .x 2] [] = true ∧ wSign.tile.tasks.running = none ∧
    wSign.tile.member = Member.free ∧ wSign.tile.cache = [] ∧
    (wSign.settle.readX 1).toNat % 128 = 0 ∧ wSign.released = true ∧
    (match wSign.settle.readSigning (wSign.settle.readX 1) with
     | (z, .ok g) => decide (z = wSign.settle) && decide (g = aSigning)
     | (_, .error _) => false) = true ∧
    wSign.pins = [] ∧ wSign.compacts = [] ∧ wSign.domains = [] ∧
    wSign.tile.grants aSigning.desc.bdom = true ∧ aSigning.desc.snap = false ∧
    isOk (wSign.settle.signPages aSigning.entry.back aSigning.entry.segs) [0x30000] = true := by
  decide +kernel

/-- A member on a tile. -/
def aMem (i t : Nat) : CMember :=
  { index := i, tile := t, twin := false, first := 1, segs := 1, back := 0x30000, pages := [0x30000],
    snapPages := [0x40000, 0x50000], token := 0 }

/-- A compact of domain 3 with the member of tile 0. -/
def aComp : Compact where
  num := 0
  cid := 9
  bdom := 3
  ctx := 0
  load := false
  snap := false
  twin := false
  snapInt := 0
  nmem := 1
  harts := [(0, 0)]
  twins := []
  members := [aMem 0 0]
  far := false
  signed := true
  signing := []
  since := 0
  tmo := 0
  image := []
  len := 1
  sched := []
  arrived := [0]
  gen := 1
  released := []
  slots := []
  beats := []
  copies := []
  remoteIn := []
  snapAt := 0
  rollbacksHere := 0
  rollbacks := 0
  mismatch := false

/-- Tile 0 as a member in a phase, with BARSTAT. -/
def wMem (c : Compact) (p : Phase) (bs : Word) : State :=
  wc (fun r => { r with barstat := bs }) { wSign with
    compacts := [c], tile := { wSign.tile with member := { Member.free with phase := p } } }

/-- The same statement: the CSIGN of a member whose compact is committed; a domain defined, one with
an arrival of this tile before and after its generation has ended, and without one. -/
theorem witness_domains :
    (let s := wMem aComp .compute 0x8000000300000000
     s.compactOf s.cur = some aComp ∧ s.tile.member.verdict = none ∧ s.tile.stands .csign 3 = true ∧
     s.tile.arrivalGen ≠ aComp.gen ∧ s.tile.member.phase ≠ .signing) ∧
    (let s := (wSign.writeMem 0 0x2000 8 3).writeMem 0 0x2008 8 0
     let s := { wx [(1, 0x2040), (2, 3)] s with
       domains := [⟨0, 3, [0, 1], 0, []⟩], choice := ⟨true, false, false⟩ }
     (s.readX 1).toNat % 64 = 0 ∧ s.releasedAt 0 = true ∧
     reads8 s (s.readX 1) 8 (List.replicate 8 0) = true ∧ (s.readX 2).toNat % 64 = 3 ∧
     s.tile.grants 3 = true ∧ s.compacts = [] ∧ s.domainOf 0 3 = some ⟨0, 3, [0, 1], 0, []⟩ ∧
     s.ready [.x 2, .x 1] [] = true ∧ s.tile.stands .bar 3 = false ∧ s.released = true ∧ s.acquiring = false ∧
     s.choice.defer = true ∧
     (let r := wc (fun r => { r with barstat := 0x8000000300000000 }) s
      r.tile.stands .bar 3 = true ∧ r.tile.arrivalGen = 0 ∧ r.tile.arrivalGen ≠ 1)) ∧
    (∀ t ∈ [0, 1], t ∈ [0, 1]) := by decide +kernel

/-- A compact in signing, whose one member has arrived. -/
def aSign1 : Compact := { aComp with signed := false, signing := [⟨0, 0, 77⟩], gen := 0 }

/-- The same statement: a compact whose members have all arrived, and one with a member missing, in
time and late. -/
theorem witness_commit :
    (let s := wMem aSign1 .signing 0
     s.compacts = [aSign1] ∧ aSign1.num = s.arg.n₁ ∧ s.allArrived aSign1 s.arg.flag = true ∧
     s.arg.n₂ = 0 ∧ s.pins = [] ∧ aSign1.readSchedule = some (1, []) ∧
     aSign1.members.length ≤ 4096 ∧ (∀ p ∈ s.tiles, p.2.cache = []) ∧
     (∀ m ∈ aSign1.members, m.twin = false ∧ (s.getTile m.tile).empty = [])) ∧
    (let c := { aSign1 with
       nmem := 2, harts := [(0, 0), (40, 0)], members := [aMem 0 0, aMem 1 40], arrived := [0, 40]
       signing := [⟨0, 0, 77⟩, ⟨40, 1, 77⟩] }
     let s := wMem c .signing 0
     s.allArrived c s.arg.flag = true ∧ (∀ x ∈ c.signing, ∀ y ∈ c.signing, x.hash = y.hash) ∧
     c.readSchedule = some (1, []) ∧
     (∀ m ∈ c.members, m.twin = false ∧ (s.getTile m.tile).empty = [])) ∧
    (let c := { aSign1 with nmem := 2, harts := [(0, 0), (40, 0)], tmo := 1 }
     let s := wMem c .signing 0
     s.allArrived c false = false ∧ 1 < c.nmem ∧ (∀ x ∈ c.signing, x.index ≠ 1) ∧
     (∀ j < 1, ∃ x ∈ c.signing, x.index = j) ∧ s.cc < c.since + (c.tmo + 1) * 2 ^ 16 ∧
     c.since + (c.tmo + 1) * 2 ^ 16 ≤ { s with cc := 2 ^ 17 }.cc) := by decide +kernel

/-- A compact of tiles 0 and 40 with one entry: slot 2, port 0 of member 0 to port 1 of member 1. -/
def aComp2 : Compact := { aComp with
  nmem := 2, harts := [(0, 0), (40, 0)], members := [aMem 0 0, aMem 1 40], len := 9
  sched := [⟨2, 0, 1, 0, 1⟩], arrived := [] }

/-- Both its tiles in a phase, with hatch tables. -/
def wMem2 (c : Compact) (p : Phase) (a b : List HatchEntry) : State :=
  let s := wMem c p 0
  { s with
    tile := { s.tile with member := { s.tile.member with hatch := a } }
    pins := [⟨0, 0, 1, [3], 0x30000, 0⟩, ⟨0, 40, 1, [5], 0x50000, 0⟩]
    others := [(40, { Tile.reset 40 with
      member := { Member.free with phase := p, index := 1, hatch := b } })] }

/-- SuperstepsTransferBeats: SXMIT and SSEL in TRANSFER, granted and not, early and late, inside the
range and outside; SSTEP in COMPUTE; SXEND before and after the generation ends. -/
theorem witness_supersteps :
    (let s := wx [(3, 0x10040)] (wMem2 aComp2 .transfer [] [])
     s.drained = true ∧ s.ready [.x 3] [] = true ∧ s.compactOf s.cur = some aComp2 ∧
     (s.readX 3).toNat % 64 = 0 ∧ s.tile.member.phase = .transfer ∧
     (∃ e ∈ aComp2.sched, e.src = s.tile.member.index ∧ e.slot = 2 ∧ e.sh = 0) ∧
     ¬(∃ e ∈ aComp2.sched, e.src = s.tile.member.index ∧ e.slot = 3) ∧
     s.ownRange 0x10040 = true ∧ s.ownRange 0x40 = false ∧ aComp2.nextSlot (dieOf s.cur) = none ∧
     ({ aComp2 with slots := [(0, 4)] } : Compact).nextSlot (dieOf s.cur) = some 4 ∧
     aComp2.keySlot ⟨2, 0, 1, 0, 1⟩ 40 = 7 ∧
     (s.tile.member.hatch.filter fun x => !x.done).length < 256) ∧
    (let s := wDefer (wMem aComp .compute 0)
     s.compactOf s.cur = some aComp ∧ s.settle.rangeBusy = false ∧ s.tile.tasks.ready = [] ∧
     s.tile.tasks.parked = [] ∧ s.tile.tasks.running = none ∧ s.choice.defer = true ∧
     s.memberDevices aComp = []) ∧
    (let s := wDefer (wMem aComp .barrier 0)
     s.tile.member.verdict = none ∧ s.tile.stands .sxend 3 = false ∧ s.settle.beatsDone aComp = true ∧
     s.released = true ∧ aComp.bdom < 64 ∧ s.memberDevices aComp = [] ∧
     s.tile.member.phase = .barrier ∧ s.choice.defer = true) ∧
    (let s := wMem aComp .barrier 0x8000000300000000
     s.tile.stands .sxend aComp.bdom = true ∧ s.tile.arrivalGen ≠ aComp.gen) := by decide +kernel

/-- The same statement: the start of a transfer, its slots with a source, a sink and neither, a beat
from another device, its end, and the barrier. -/
theorem witness_slots :
    (let c := { aComp2 with arrived := [0, 40] }
     let s := wMem2 c .transfer [] []
     s.compacts = [c] ∧ c.num = s.arg.n₁ ∧ c.released = [] ∧ s.allArrived c s.arg.flag = true ∧
     0 ∈ c.dies ∧ ∀ m ∈ c.members, (s.getTile m.tile).member.phase = .transfer) ∧
    (let x : HatchEntry := ⟨true, 0, 2, 0x10000, false⟩
     let y : HatchEntry := ⟨false, 1, 7, 0x10000, false⟩
     let c := { aComp2 with slots := [(0, 2)] }
     let s := wMem2 c .transfer [x] [y]
     let key := 2 + hatchDist 0 40
     (s.getTile 0).member.hatch = [x] ∧ (s.getTile 40).member.hatch = [y] ∧
     s.poisoned = [] ∧ s.injected = [] ∧ c.nextSlot 0 = some 2 ∧ 2 + 1 < c.len ∧ c.hart 1 = s.device * 2048 + 40 ∧
     onDie (c.hart 0) (c.hart 1) = true ∧ key = 7 ∧
     ({ c with slots := [(0, 7)], beats := [⟨0, 0, 2, 40, 1, 5, false⟩] } : Compact).nextSlot 0 =
       some key ∧ key + 1 < c.len) ∧
    (let c := { aComp2 with harts := [(2048, 0), (40, 0)], members := [aMem 1 40] }
     let y : HatchEntry := ⟨false, 1, 2, 0x10000, false⟩
     let s := { wMem2 c .barrier [] [y] with arg := { ev 0 1 2 true with tile := 40 } }
     s.compacts = [c] ∧ c.num = s.arg.n₁ ∧ c.hart 1 = s.device * 2048 + 40 ∧
     c.hart 0 / 2048 ≠ s.device ∧ (s.getTile 40).member.hatch = [y] ∧ s.arg.w₁ = 0 ∧
     s.poisoned = [] ∧ s.injected = []) ∧
    (let c := { aComp with slots := [(0, 1)] }
     c.nextSlot 0 = some c.len ∧ c.pairsReady 0 (c.len + 3) = true ∧ c.copies = []) ∧
    (let c := { aComp2 with harts := [(0, 0), (2048, 0)], members := [aMem 0 0], slots := [(0, 9)] }
     let s := wMem2 c .transfer [⟨true, 0, 2, 0x10000, true⟩] []
     c.nextSlot 0 = some c.len ∧ c.pairsReady 0 (c.len + 3) = true ∧ c.copies = [] ∧
     (∃ d ∈ c.receivers ⟨2, 0, 1, 0, 1⟩, onDie (c.hart 0) d = false) ∧
     ∃ x ∈ (s.getTile 0).member.hatch, x.send = true ∧ x.port = 0 ∧ x.slot = 2 ∧ x.done = true) ∧
    (let s := wMem aComp .barrier 0
     s.allArrived aComp s.arg.flag = true ∧ aComp.mismatch = false ∧
     (∀ m ∈ aComp.members, (s.getTile m.tile).member.phase = .barrier) ∧
     aComp.copies = [] ∧ s.dispReads = [] ∧ aComp.snap = false ∧
     ∀ p ∈ s.tiles, p.2.reqs = [] ∧ p.2.remote = [] ∧ p.2.cmds = [] ∧ p.2.feWaits = [] ∧
       p.2.eh.begun = none ∧ p.2.acSeq.copying = none ∧ p.2.stSeq.copying = none) := by
  decide +kernel

/-- CompactsDissolveAndRollBack: CSTAT and SNAP without a compact, with one that takes snapshots and
one that does not; CDISS before and after its generation ends, and without a compact, after a
dissolution and not; a dissolution, and a rollback before
and after the second. -/
theorem witness_dissolve :
    w1.compactOf w1.cur = none ∧ w1.tile.tasks.running = none ∧ w1.ready [.x 2] [.x 3] = true ∧
    (wMem aComp .compute 0).compactOf 0 = some aComp ∧
    (wMem { aComp with snap := true } .compute 0).compactOf 0 = some { aComp with snap := true } ∧
    (wMem aSign1 .signing 0).compactOf 0 = some aSign1 ∧
    ((wx [(2, 15)] w1).readX 2).toNat % 16 = 15 ∧ (w1.readX 1).toNat % 16 = 0 ∧
    (let s := wDefer (wMem aComp .compute 0)
     s.drained = true ∧ s.tile.member.verdict = none ∧ s.tile.stands .cdiss aComp.bdom = false ∧
     s.settle.rangeBusy = false ∧ s.released = true ∧ s.memberDevices aComp = [] ∧
     aComp.bdom < 64 ∧ s.choice.defer = true) ∧
    (wMem aComp .dissolving 0x8000000300000000).tile.stands .cdiss aComp.bdom = true ∧
    (wMem aComp .dissolving 0x8000000300000000).tile.arrivalGen ≠ aComp.gen ∧
    (let s := wc (fun r => { r with barstat := 0x8000000300000000 }) w1
     let left (o : Option Nat) : State := s.onTile fun t => { t with
       member := { t.member with left := o } }
     (left (some 3)).compactOf 0 = none ∧ (left (some 3)).drained = true ∧
     (left (some 3)).tile.member.left = some 3 ∧ (left (some 3)).tile.stands .cdiss 3 = true ∧
     (left (some 4)).tile.stands .cdiss 4 = false ∧ (left none).tile.member.left = none) ∧
    (let s := wMem aComp .dissolving 0
     s.allArrived aComp s.arg.flag = true ∧ (s.getTile 0).member.phase = .dissolving ∧
     (aMem 0 0).first + (aMem 0 0).segs ≤ 8 ∧ (aMem 0 0).pages.length = (aMem 0 0).segs ∧
     (∀ p ∈ (aMem 0 0).pages, s.isLocal p = true ∧ regionOf (localAddr p) = .hbm) ∧
     (aMem 0 0).token = 0 ∧ s.dispReads = [] ∧
     (∀ p ∈ s.tiles, p.2.reqs = [] ∧ p.2.remote = [] ∧ p.2.cmds = [] ∧ p.2.feWaits = [] ∧
       p.2.cache = [] ∧ p.2.eh.begun = none ∧ p.2.acSeq.copying = none ∧
       p.2.stSeq.copying = none) ∧ (∀ g ∈ s.gangs, g.saved = []) ∧
     (∀ p ∈ (aMem 0 0).snapPages,
       s.isLocal p = true ∧ p % 0x10000 = 0 ∧ regionOf (localAddr p) = .hbm) ∧
     (∀ a ∈ s.areas, a.store ≠ 0) ∧
     (aMem 0 0).segs ≤ (aMem 0 0).snapPages.length ∧ aComp.rollbacksHere < 2) ∧
    2 ≤ ({ aComp with rollbacksHere := 2 } : Compact).rollbacksHere := by decide +kernel

/-- ExceptionsSaveAndEnterTheHandler, the rollback: a DATAERR with REASON 13 in a compact with
snapshots, one with another REASON there, another cause, and no compact. -/
theorem witness_rolls_back :
    let s := wMem { aComp with snap := true } .compute 0
    let e := Cause.dataerr.code
    s.rollsBack e (some (mfinfoOf 0 0 0 reasonUE)) = some 0 ∧ s.rollsBack e none = some 0 ∧
    s.rollsBack e (some (mfinfoOf 0 0 0 reasonBADSAVE)) = none ∧
    s.rollsBack Cause.illop.code none = none ∧ Cause.illop ≠ .dataerr ∧
    w1.rollsBack e (some (mfinfoOf 0 0 0 reasonUE)) = none := by decide +kernel

/-- A record of one gang of one hart on die 0, entered at 0x1000 with priority 2, bounded by 5
µs. -/
def aRecord : List Word := [0x10000000021, 0x500000000, 0x1000] ++ List.replicate 13 0

/-- The record at 0x2000, of context 4. -/
def wRecord : State :=
  wc (fun c => { c with ctxid := 4 }) (((w1.writeMem 0 0x2000 8 0x10000000021).writeMem 0 0x2008 8
    (5 * 2 ^ 32)).writeMem 0 0x2010 8 0x1000)

/-- Task operands: routine 0x1000, argument, target, counter. -/
def wTask (routine arg target cword : Word) : State :=
  wx [(4, routine), (5, arg), (6, target), (7, cword), (2, 5)] w0

def aTask (cw : Word) : Task := ⟨0, 0x1000, 0, cw⟩

def wRunning (t : Task) : State := w1.onTile fun u => { u with tasks := { u.tasks with running := some t } }

def aGang (st : GangState) (ts : List Nat) : Gang :=
  { lid := 1, idx := 0, state := st, die := 0, region := 0, tiles := ts, gone := [], domains := 0,
    startNs := 0, stamp := 0, saved := [], stopped := 0, front := false, hold := false, kept := 0, doms := [] }

/-- LaunchesTasksAndMailboxes, SPAWN and the tasks: a record that is taken, at context 4 and at
context 0, and one that is refused; a task for this hart, with room and without, for another and for
none; a task running with a counter, without one, and none. -/
theorem witness_launches :
    wRecord.ready [.x 1, .x (1 + 1), .x (1 + 2), .x (1 + 3), .x 2] [.x 9, .x 10] = true ∧
    (wRecord.readX 1).toNat % 128 = 0 ∧ wRecord.released = true ∧ wRecord.acquiring = false ∧
    wRecord.dispReads = [] ∧
    reads8 wRecord (wRecord.readX 1) 16 aRecord = true ∧ wRecord.recordCode aRecord false = none ∧
    wRecord.recordCode (List.replicate 16 0) false = some 1 ∧ recDomain aRecord = false ∧
    recKind aRecord = 1 ∧ wRecord.tile.ctx ≠ 0 ∧ w1.tile.ctx = 0 ∧
    wRecord.killed.contains wRecord.tile.ctx = false ∧
    (∀ k ∈ recDies aRecord, wRecord.poolCount k < 1024) ∧
    (let s := wTask 0x1000 0x2000 (2 ^ 63) 0x3000
     s.ready [.x 4, .x (4 + 1), .x (4 + 2), .x (4 + 3), .x 2] [.x 9, .x 10] = true ∧
     (s.readX 4).toNat % 4 = 0 ∧ (s.readX 5).toNat % 128 = 0 ∧ (s.readX 7).toNat % 8 = 0 ∧
     s.taskTarget (s.readX 6) = .here ∧ s.tile.tasks.count < 64 ∧ s.released = true) ∧
    64 ≤ TaskTable.count ⟨List.replicate 64 (aTask 0), [], none, false, 0, 0⟩ ∧
    (let s := { wTask 0x1000 0x2000 1 0x3000 with
       others := [(1, { Tile.reset 1 with run := .running, place := some (aPlace 1) })] }
     let s := s.onTile fun t => { t with place := some (aPlace 0) }
     s.taskTarget 1 = .at 1 ∧ (s.getTile 1).tasks.count < 64 ∧ s.taskTarget 7 = .none) ∧
    w1.tile.tasks.running = none ∧ (wRunning (aTask 0)).tile.tasks.running = some (aTask 0) ∧
    (wRunning (aTask 0)).alone = true ∧
    passes (wRunning (aTask 0x3000)) { kind := .atomic, align := 8 } 0x3000 0x3000 = true ∧
    plain (wRunning (aTask 0x3000)) 0x3000 = true := by decide +kernel

def aMailbox (slot line : Nat) (busy : Option Nat) : Mailbox :=
  ⟨slot, line, 4, 2, aRecord, BitVec.ofNat 64 line, 0, busy⟩

/-- The same statement, GDONE and MBOXREG: commands out and none; no gang, the last hart of one and
another; a line with a binding and without; the lowest slot taken. -/
theorem witness_mailboxes :
    w1.tile.allDone = true ∧ wCmd.tile.allDone = false ∧ w1.tile.place = none ∧
    (let s := { w1.onTile (fun t => { t with place := some (aPlace 0) }) with
       gangs := [aGang .running [0]] }
     s.gang 1 0 = some (aGang .running [0]) ∧ (∀ n ∈ [0], n ∈ insertNat [] s.cur) ∧
     ¬(∀ n ∈ [0, 1], n ∈ insertNat [] s.cur)) ∧
    (let s := { wRecord.onTile (fun t => { t with
       eh := { t.eh with x := (t.eh.x.commit 4 0x6000).commit 2 0x2000 } }) with
         mailboxes := [aMailbox 1 0x5000 none] }
     1 ≤ s.tile.level ∧ (s.readX 4).toNat % 128 = 0 ∧ s.releasedAt 0 = true ∧
     isOk (s.translate (s.readX 4).toNat .store) ⟨0x6000, false, false, none⟩ = true ∧
     s.mailboxLine 0x6000 = some 0x6000 ∧ s.mailboxLine 0x5000 = some 0x5000 ∧
     s.readX 2 ≠ 0 ∧ s.readX 3 = 0 ∧ (s.readX 2).toNat % 128 = 0 ∧
     reads8 s (s.readX 2) 16 aRecord = true ∧ (∀ m ∈ s.mailboxes, m.line ≠ 0x6000) ∧
     (∃ m ∈ s.mailboxes, m.line = 0x5000) ∧ (∀ m ∈ s.mailboxes, m.slot ≠ 2) ∧
     ∀ j < 2, 1 ≤ j → ∃ m ∈ s.mailboxes, m.slot = j) := by decide +kernel

/-- A queued launch of the record. -/
def aLaunch (st : LaunchState) (n : Nat) : Launch :=
  { Launch.new 1 4 2 aRecord none none none 0 0 with state := st, started := n }

/-- DispatchersPlaceAndStartGangs: a gang of one group of one hart; a launch that fits on a die and
one that does not; a head that ages, a gang whose bound has passed and one whose die is another; a
grid stalled and in time. -/
theorem witness_dispatch :
    (let g := aGang .holding [5]
     g.tiles = [[5]].flatten ∧ g.tiles.Nodup ∧ [[5]].length = recGroups aRecord ∧
     ∀ x ∈ [[5]], x.length = recSize aRecord) ∧
    (let s := { State.reset with launches := [aLaunch .queued 0], choice := ⟨true, false, false⟩ }
     let l := aLaunch .queued 0
     s.arg.n₁ = 0 ∧ s.gangs = [] ∧ s.graphs = [] ∧ s.poweredTile 0 = true ∧
     s.heads = Vector.replicate 4 [] ∧ 0 ∈ recDies l.words ∧
     recBackfill l.words = false ∧ recDomain l.words = false ∧
     s.fits ⟨l, 0, false, false, 0⟩ 0 (fun _ => true) = some (0, [[0]], 0) ∧
     (s.getTile 0).run = .halted ∧ (s.getTile 0).ctx = 0 ∧ (s.getTile 0).doorbell.pending = false ∧
     s.first 0 (s.waiting 0 false) = some ⟨l, 0, false, false, 0⟩) ∧
    (let s := { State.reset with
       launches := [aLaunch .queued 0], gtc := 1600000, heads := vset State.reset.heads 0 [⟨1, 0, 0, 0, none⟩] }
     vget s.heads 0 [] = ⟨1, 0, 0, 0, none⟩ :: [] ∧
     s.first 0 (s.waiting 0 false) = some ⟨aLaunch .queued 0, 0, false, false, 0⟩ ∧
     16 ≤ 0 + (s.gtc - 0) / 100000) ∧
    (let w : List Word := [0x100001F0021] ++ aRecord.tail
     let l := { aLaunch .queued 0 with words := w }
     recKind w = 1 ∧ (({ State.reset with
       gangs := [aGang .running ((List.range 16).map (32 * ·))] } : State).fits ⟨l, 0, false, false, 0⟩ 0
         (fun _ => true) = none)) ∧
    (let s := { State.reset with gangs := [aGang .running [5]], launches := [aLaunch .running 1] }
     s.declaredEnd (aGang .running [5]) = some 5000 ∧ 5000 ≤ { s with gtc := 5000 }.gtc ∧
     ∀ g ∈ s.gangs, g.die ≠ 1) ∧
    (let w : List Word := [0x10000000021, 1] ++ aRecord.drop 2
     let l := { aLaunch .running 1 with words := w }
     let s := { State.reset with gangs := [aGang .running [5]], launches := [l]
                                 arg := ev 1 0 0 false }
     s.launch s.arg.n₁ = some l ∧ l.started < recGangs l.words ∧ s.gtc < l.since + recGridwait w ∧
     l.since + recGridwait w ≤ { s with gtc := 2000000 }.gtc) := by decide +kernel

/-- A domain gang. -/
def aDom (c : Bool) : DomainGang :=
  { lid := 1, idx := 0, members := [0, 7], held := [0, 7], started := false, ended := []
    wanted := true, holdSince := 0, coordinator := c, go := false }

/-- The same statement: launch lines and mailboxes with records that are taken and refused, at once
and after PARSING, free and busy; a domain gang at its coordinator and at a member, in time and
late. -/
theorem witness_triggers :
    (let s := { State.reset with
       mem := (wRecord.mem.map fun (c : Host.Cell) => (c.1 + 0x20000000000 - 0x2000, c.2))
       bindings := [(0, 0x8000000000070004)] }
     s.arg.n₁ = 0 ∧ s.arg.n₂ < 4096 ∧ (List.range 16).map (fun k =>
       BitVec.ofNat 64 (readLE s.mem.read (0x20000000000 + 128 * 0 + 8 * k) 8)) = aRecord ∧
     s.nextLid < 2 ^ 32 ∧ s.choice.defer = false ∧ (wDefer s).choice.defer = true ∧
     s.parsing = [] ∧ s.dispReads = [] ∧
     s.recordCode aRecord false = none ∧ (lookupD s.bindings 0 0).getLsbD 63 = true ∧
     s.killed.contains 4 = false ∧ (∀ k ∈ recDies aRecord, s.poolCount k < 1024)) ∧
    State.reset.recordCode (List.replicate 16 0) false = some 1 ∧
    (∀ ws ∈ [aRecord, List.replicate 16 0],
      let p : Parsing := ⟨1, 4, 7, some 0, none, ws⟩
      let s := { State.reset with
        parsing := [p], lstat := putKey State.reset.lstat 0 0x1000000000000001, arg := ev 2 1 0 false }
      s.arg.n₁ = 2 ∧ p.lid = s.arg.n₂ ∧ p.mailbox = none ∧ p.line = some 0 ∧ s.dispReads = [] ∧
      (s.lineStat 0).toNat % 2 ^ 32 = p.lid) ∧
    (let s := { State.reset with mailboxes := [aMailbox 3 0x5000 none], arg := ev 1 3 0 false
                                 choice := ⟨true, false, false⟩ }
     let ws := setNth aRecord 3 0x5000
     (aMailbox 3 0x5000 none).slot = s.arg.n₂ ∧ (aMailbox 3 0x5000 none).owed = 0 ∧
     s.parsing = [] ∧ s.dispReads = [] ∧
     s.recordCode (setNth (List.replicate 16 0) 3 0x5000) false = some 1 ∧
     s.recordCode ws false = none ∧
     recDomain ws = false ∧ recKind ws = 1 ∧ (∀ k ∈ recDies ws, s.poolCount k < 1024)) ∧
    (aMailbox 3 0x5000 (some 1)).busy.isSome = true ∧
    (let s := { State.reset with domainGangs := [aDom false], arg := ev 1 0 7 false
                                 gangs := [aGang .holding [5]], launches := [aLaunch .running 1] }
     (aDom false).lid = s.arg.n₁ ∧ (aDom false).idx = s.arg.n₂ ∧ s.arg.flag = false ∧
     s.arg.n₃ ∈ (aDom true).members ∧ s.gang 1 0 = some (aGang .holding [5]) ∧
     s.launch 1 = some (aLaunch .running 1) ∧ s.tilesReady (aGang .holding [5]) = true ∧
     s.tilesReady (aGang .holding [0, 1]) = true ∧
     (s.modTile 5 fun t => { t with run := .gated }).tilesReady (aGang .holding [5]) = false ∧
     (∀ m ∈ (aDom true).members, m ∈ (aDom true).held) ∧
     (let d := { aDom true with held := [0] }
      (∃ m ∈ d.members, m ∉ d.held) ∧ ∀ m ∈ d.members, m ∈ insertNat d.held 7) ∧
     ¬(0 + 1 < recGangs aRecord) ∧ s.gtc < 0 + 1000000 ∧
     0 + 1000000 ≤ { s with gtc := 1000000 }.gtc) := by decide +kernel

/-- A request of tile 0 on 8 bytes at 0x2000. -/
def aReq (k : ReqKind) (d : Dest) (p : Option Parked) (ans : Bool) : Req := { farReq with
  kind := k, dest := d, accs := [⟨0x2000, 8, 0, false, false, 9, false⟩], parked := p
  result := [5], answered := ans }

/-- The one request under way, and an event about it. -/
def wReq (q : Req) : State := { wEtch with
  tile := { wEtch.tile with reqs := [q] }, arg := ev 3 0 0 false }

/-- RequestsArePerformedAndAnswered: requests of each kind before their home and after it, and
parked ones; an image in memory for a call that missed. -/
theorem witness_requests :
    (let q := aReq .load (.x 9 8 false) none false
     let s := wReq q
     { s with tile := { s.tile with reqs := [] } }.alone = true ∧ s.arg.tile = s.cur ∧
     s.tile.reqs = [q] ∧ s.arg.n₁ = q.id ∧ s.arg.n₂ ≠ 1 ∧ s.arg.flag = false ∧ q.stage = .sent ∧
     { q with stage := .refused }.stage = .refused ∧ q.error = none ∧ q.paired = false ∧
     (∀ a ∈ q.accs, a.done = false ∧ s.isLocal a.pa = true ∧ memoryAt (localAddr a.pa) = true ∧
       s.uncached (lineOf (localAddr a.pa)) = true ∧ (a.pvt = false ∨ a.mt = true))) ∧
    (let q : Req := { aReq .load (.x 9 8 false) none false with
       accs := [⟨0x10000000000, 8, 0, false, false, 9, false⟩] }
     (wReq q).heldByTile q = true) ∧
    (let q := aReq (.etch 1 [] 0x3001) (.x2 9 10) none false
     (wReq q).imageOf q 1 = some (anImage 0x2000)) ∧
    (let q := aReq (.etch 1 [] 0x3001) (.x2 9 10) (some .routineMiss) false
     let s := { wReq q with images := [] }
     let s := ((s.writeMem 0 0x3010 8 0x5000).writeMem 0 0x3018 8 (2 ^ 63 + 2 ^ 32 + 2)).writeMem 0
       0x5000 8 ((etchWords.getD 0 0).toNat + 2 ^ 32 * (etchWords.getD 1 0).toNat)
     (match s.fetchRoutine s.cur q 1 0x3001 with
       | (z, .ok m) => decide (z = s) && decide (m = anImage 0x2000)
       | (_, _) => false) = true) ∧
    (let q := aReq (.amo 0) (.x 9 8 true) none true
     (wReq q).compacts = [] ∧ q.acquire = none ∧ q.flags = 0 ∧ q.result = [5]) ∧
    ({ aReq (.cas 4) (.x 9 8 true) none true with acquire := some 1 } : Req).acquire = some (0 + 1) ∧
    (∀ a ∈ (aReq .load (.queue 2 1) none true).accs, a.off = 0 ∧ a.data < 256 ^ 8) := by
  decide +kernel

/-- The same statement: a walk to a leaf of 64 KiB and one that fails, and a pending miss; units
stuck for long and not; a VREDQ at the pc; an image being copied. -/
theorem witness_unit_events :
    (let s := ((w1.writeMem 0 0x10000 8 0x20001).writeMem 0 0x20000 8 0x30001).writeMem 0 0x30010 8
       0x40039
     let s := wc (fun c => { c with trbase := 0x10001 }) s
     let root := s.tile.cr.trbase.toNat / 2 ^ 9 % 2 ^ 47 * 512
     s.tile.cr.trbase.getLsbD 0 = true ∧ root = 0x10000 ∧
     isOk (s.walk root 0x20000) (0x40039, false) = true ∧ isOk (s.walk root 0x30000) (0, false) =
       false ∧ s.injected = [] ∧ s.walkWaits s.tile.cr.trbase 0x20000 = false ∧
     s.walkWaits s.tile.cr.trbase 0x30000 = false ∧ (∀ m ∈ s.misses, m.covers (dieOf s.cur) s.tile.ctx 2 = false) ∧
     (let m : Miss := ⟨0, 0, 2, 0x10001, [0], false⟩
      m.covers (dieOf s.cur) s.tile.ctx (0x20000 / 2 ^ 16) = true ∧ m.tiles = [s.cur] ∧
      m.root.toNat / 2 ^ 9 % 2 ^ 47 * 512 = root)) ∧
    (let s := w1.onTile fun t => { t with stuckSince := some 0, eh := { t.eh with wait := 3 } }
     s.tile.stuck = true ∧ s.cc < 0 + 4096 ∧ 0 + 4096 ≤ { s with cc := 4096 }.cc) ∧
    (let w := encode (.vredq 0 4 1 2 0 .i32)
     let s := wCode [w]
     s.tile.run = .running ∧ s.tile.deferred = [] ∧ s.tile.dueInterrupt s.gtc = none ∧
     fetches s s.tile.eh.pc w = true ∧ isOk (decodeWord w) (.vredq 0 4 1 2 0 .i32) = true) ∧
    (let s := w1.onTile fun t => { t with
       acSeq := { t.acSeq with copying := some ⟨[0x2000], 128, 0x2000, []⟩ } }
     s.alone = true ∧ (s.tile.seq .as).copying = some ⟨[0x2000], 128, 0x2000, []⟩ ∧
     plain s 0x2000 = true ∧ 128 ≤ 128 * [0x2000].length) := by decide +kernel

/-- TlbErrorBankAndSaveAreaInstructions: bank numbers that exist and one that does not; each mode
and scope of TLBINV, with a walk in its scope and without; an area to save to, one to load and one
that is none. -/
theorem witness_system_instructions :
    w1.ready [.x 1, .x 2] [.x 3, .x (3 + 1), .x (3 + 2)] = true ∧ 1 ≤ w1.tile.level ∧
    bankExists 0x1000 = true ∧ bankExists 0x1040 = false ∧
    ([0x04, 0x14, 0x24, 0x00, 0x13].all fun v =>
      decide (v / 16 % 4 < 3) && decide (v % 8 < 5)) = true ∧
    (let m : Miss := ⟨0, 0, 2, 0x10001, [0], false⟩
     ∃ x ∈ { w1 with misses := [m] }.misses, ∃ n ∈ x.tiles, n = w1.cur) ∧ w1.misses = [] ∧
    (let s := wx [(1, 0x40000)] w0
     s.choice.defer = false ∧ (wDefer s).core.begun = none ∧
     ((wDefer s).setCore { s.core with begun := some .load }).core.begun.isSome = true ∧
     s.settle.saveWaits = false ∧ (s.settle.readX 1).toNat % 0x10000 = 0 ∧
     s.tile.areaSize / 0x10000 = 4 ∧
     isOk (s.settle.areaPages .store (s.settle.readX 1) 4) [0x40000, 0x50000, 0x60000, 0x70000] =
       true ∧
     isOk (s.settle.areaPages .load (s.settle.readX 1) 4) [0x40000, 0x50000, 0x60000, 0x70000] =
       true ∧
     s.settle.badArea [0x40000, 0x50000, 0x60000, 0x70000] = true ∧
     (let pages := [0x40000, 0x50000, 0x60000, 0x70000]
      let z := (s.settle.writeMem 0 0x40000 8 0x0001000053443438).writeMem 0 0x40030 8 0x40000
      let pinned : State := { z with pins := [⟨0, 40, 1, [4], 0x40000, 4⟩] }
      let lost : State := { z with injected := [(0x1001, true)], tags := (0x1001, 4) :: z.tags }
      let copied : State := { z with snoop := [0x40000] }
      z.badArea pages = false ∧ z.detectArea pages = z ∧ z.areaLost pages 0x40000 = none ∧
      z.areaHeld pages false = false ∧ z.areaHeld pages true = false ∧
      pinned.areaHeld pages false = true ∧ copied.areaHeld pages true = true ∧
      isOk (copied.areaPages .store (z.readX 1) 4) pages = true ∧ lost.badArea pages = false ∧
      (lost.detectArea pages).areaLost pages 0x40000 = some 1 ∧ z.tile.member.phase = .free ∧
      z.areaInj pages + (z.tile.inj.filter (·.orphan)).length ≤ 16)) := by decide +kernel

/-- Tile 0 with a doorbell, running or gated. -/
def wBell (r : RunState) (retain rung pending : Bool) : State :=
  w1.onTile fun t => { t with run := r, doorbell := ⟨some 0x9000, 0x1000, retain, rung, pending⟩ }

/-- PowerGatingAndWakes: before the COMMIT, rung and not; at rest and busy; gated. -/
theorem witness_power :
    w1.tile.level = 2 ∧ w1.drained = true ∧ w1.ready [.x 1] [.x 2] = true ∧
    w1.tile.doorbell.pending = false ∧ w1.gateBusy = false ∧ wCmd.gateBusy = true ∧
    w1.tile.cache = [] ∧ (wBell .running true true true).tile.doorbell.rung = true ∧
    (wBell .running true false true).tile.doorbell.pending = true ∧
    (wBell .running true false true).tile.run ≠ .gated ∧
    (wBell .gated true true false).arg.tile = (wBell .gated true true false).cur ∧
    (wBell .gated true true false).tile.run = .gated := by decide +kernel

/-- ReleaseResetRegisterWritesAndKill: a halted hart of a powered die; an injected error of each
kind; an address of each register; CTXKILL of the context at a tile. -/
theorem witness_registers :
    State.reset.tile.run = .halted ∧ vget State.reset.mgmt.powered (0 / 512) false = true ∧
    w1.tile.run ≠ .halted ∧ (w1.others.map (·.1)).Nodup ∧ regionOf 0x2000 = .hbm ∧
    regionOf 0x10000000000 ≠ .hbm ∧
    (let s := { w1 with injected := [(0x80, true)], tags := [(0x80, 4)], arg := ev 0x2000 0 0 false }
     0x80 / 2 = s.arg.n₁ / 128 ∧ s.tagOf 0x80 = some 4 ∧ 4 ∉ s.killed ∧
     4 ∈ { s with killed := [4] }.killed ∧ s.wayMates 0x80 = [] ∧
     { s with tags := (0x8A0, 5) :: s.tags }.wayMates 0x80 = [0x8A0]) ∧
    (List.range 8).all (fun k => decide (2 ^ k < 256)) = true ∧
    regionOf 0x20000000078 = .launch 0x78 ∧ regionOf 0x30010000008 = .appRegs 8 ∧
    regName 0x80008 = some (.binding 1) ∧ regName 0x20000018 = some (.bank 0 3) ∧
    regName 0x30000008 = some (.slicemap 0 1) ∧ regName 0x30001000 = some .ctxkill ∧
    regName 0x30001010 = some (.resetvec 1) ∧ regName 0x30001200 = some .preq ∧
    regName 0x30001100 = some .errinj ∧ regName 0x40010008 = some (.block 1 1) ∧
    regName 0x80010000 = some (.doorbell 0) ∧ regionOf 0x20030001000 = .regs 0x30001000 ∧
    (0x2000001 : Word) &&& 0xFFFFFFF8FC800000#64 = 0 ∧
    (0x1000001 : Word) &&& 0xFFFFFFF8FC800000#64 = 0 ∧
    (0x4000000 : Word) &&& 0xFFFFFFF8FC800000#64 ≠ 0 ∧
    (0xC000000000002000 : Word) &&& 0x2F0000000000003F#64 = 0 ∧
    (let s := { wRecord with arg := ev 4 0 0 false }
     s.alone = true ∧ s.tile.ctx = 4 ∧ s.launches = [] ∧ s.gangs = [] ∧
     ∀ p ∈ s.tiles, p.2.remote = [] ∧ p.2.cmds = []) := by decide +kernel

/-- A gang of the tiles 0 and 1 of context 4 whose pool has `k` slots, in a state. -/
def wGangs (st : GangState) (k : Word) (run : RunState) : State := { wRecord with
  contexts := [(4, List.replicate 7 0 ++ [0x100000, 0, 0, 0, k])]
  launches := [aLaunch .running 1], gangs := [aGang st [0, 1]]
  tile := { wRecord.tile with place := some (aPlace 0), run := run }
  others := [(1, { Tile.reset 1 with place := some (aPlace 1), run := run })] }

/-- PreemptionSavesAndResumesGangs: a pool with room and without; a gang running, held,
stopping; its first hart stopped, with its stores performed and not, and its last; tiles free
again and not. -/
theorem witness_preemption :
    (let s := { wGangs .running 8 .running with arg := ev 1 0 0 false }
     s.launch 1 = some (aLaunch .running 1) ∧ s.gang 1 0 = some (aGang .running [0, 1]) ∧
     s.arg.n₁ = 1 ∧ s.arg.n₂ = 0 ∧ recDomain aRecord = false ∧
     (s.slotsHeld 4).1.length + (s.slotsHeld 4).2 + 2 ≤ min 4096 (s.blockWord 4 11).toNat) ∧
    (let s := wGangs .running 1 .running
     ¬((s.slotsHeld 4).1.length + (s.slotsHeld 4).2 + 2 ≤ min 4096 (s.blockWord 4 11).toNat)) ∧
    (∀ st ∈ [GangState.running, .held],
      let s := { wGangs st 8 .running with arg := ev 0 0 0 false }
      s.gangOf s.arg.n₁ = some (aGang st [0, 1])) ∧
    (let s := wGangs .stopping 8 .stopped
     s.tile.storesDone = true ∧
     (s.onTile fun t => { t with reqs := [{ farReq with kind := .store }] }).tile.storesDone = false ∧
     s.tile.place = some (aPlace 0) ∧ s.stopDue s.cur = true ∧
     s.gang 1 0 = some (aGang .stopping [0, 1]) ∧ s.freeSaveSlot 4 = some 0 ∧
     s.areaHeld (s.slotPages 4 0) true = false ∧
     { s with pins := [⟨0, 40, 1, [0x10], 0x100000, 4⟩] }.areaHeld (s.slotPages 4 0) true = true ∧
     ((s.byLaunch [0, 1]).filter fun k => (s.getTile k).place.isSome).head? = some s.cur ∧
     ((s.byLaunch [0, 1]).filter fun k => (s.getTile k).place.isSome).length ≠ 1 ∧
     (let z := { s with others := [] }
      ((z.byLaunch [0, 1]).filter fun k => (z.getTile k).place.isSome) = [0])) ∧
    (let g := { aGang .stopping [5] with saved := [⟨0, 2048, 0, 0⟩] }
     let s := { wRecord with launches := [aLaunch .running 1], gangs := [g], arg := ev 1 0 0 false }
     s.gang s.arg.n₁ s.arg.n₂ = some g ∧ g.saved.length = g.tiles.length ∧
     (s.getTile 5).place = none ∧ (s.getTile 5).run = .halted ∧ (s.getTile 5).ctx = 0 ∧
     s.poweredTile 5 = true ∧ g.saved ≠ [] ∧
     s.areaHeld (s.slotPages 4 0) false = false ∧
     { s with pins := [⟨0, 40, 1, [1], 0x10000, 4⟩] }.areaHeld (s.slotPages 4 0) false = true ∧
     (let orphans := List.replicate 16 { aInj 1 with orphan := true }
      let w := s.movedTo g (aLaunch .running 1) false
      let full := s.modTile 5 fun t => { t with inj := orphans }
      s.injRoom (aLaunch .running 1) w ⟨0, 2048, 0, 5⟩ = true ∧
      (full.writeMem 4 0x2000 8 (2 ^ 63)).injRoom (aLaunch .running 1) w ⟨0, 2048, 0, 5⟩ =
        false)) ∧
    (wGangs .stopping 8 .stopped).tile.run ≠ .halted := by decide +kernel

/-- The host's access to a target: 0 memory, 1 the launch window, 2 the bias registers. -/
def wHost (la n target : Nat) (b : List Byte) : State :=
  { w1 with arg := { ev la n target false with bytes := b } }

/-- The device after bring-up, its dies' firmware ready: CXL memory is active. -/
def wUp (s : State) : State := { s with mgmt := { s.mgmt with
  up := true, firmware := s.mgmt.firmware.map fun f => { f with ready := true } } }

/-- HostAndApplicationComplexAccessTheDevice: before bring-up and before CXL memory is active; the
host at the end of a sector of a page in host bias, in device bias with a flip under way and
without; across sectors and beyond the HDM range; in the launch window up to the end of a line,
across two and beyond it; at the bias registers and beside them; in its own memory. -/
theorem witness_host :
    w1.mgmt.up = false ∧ w1.cxlActive = false ∧
    (let s := { w1 with mgmt := { w1.mgmt with up := true } }
     s.mgmt.up = true ∧ s.cxlActive = false) ∧
    (let s := wUp { wHost 0x203F 1 0 [7] with hostBias := [2] }
     s.choice.defer = false ∧ s.mgmt.up = true ∧ s.arg.n₃ = 0 ∧ s.cxlActive = true ∧
     s.inHdm 0x203F = true ∧ s.inHdm 0x38000000000 = false ∧
     { s with mgmt := { s.mgmt with failedDies := [0] } }.inHdm 0x203F = false ∧
     s.alone = true ∧ s.uncached (lineOf 0x203F) = true ∧
     s.flipOf 2 = none ∧ 0x203F / 4096 ∈ s.hostBias ∧
     1 ≤ s.arg.bytes.length ∧ 0x203F / 64 = (0x203F + s.arg.bytes.length - 1) / 64 ∧
     1 ≤ s.arg.n₂ ∧ ¬(0x203F / 64 = (0x203F + 2 - 1) / 64)) ∧
    (let s := wUp (wHost 0x2000 64 0 (List.replicate 64 7))
     0x2000 / 4096 ∉ s.hostBias ∧ s.flips = [] ∧ 0x2000 / 64 = (0x2000 + 64 - 1) / 64 ∧
     (∀ p ∈ s.tiles, ∀ l ∈ p.2.cache, l.owned = false) ∧
     (let f := { s with flips := [⟨7, true, true, []⟩] }
      f.alone = true ∧ f.flipOf 2 = none ∧ f.flips ≠ [])) ∧
    (let s := wUp (wHost 0x7FFF8 8 1 (List.replicate 8 7))
     s.arg.n₃ = 1 ∧ s.arg.n₁ + 8 ≤ 0x80000 ∧ s.arg.n₁ / 128 < (s.arg.n₁ + 8) / 128 ∧
     s.arg.n₁ < 0x80000 ∧ s.arg.n₁ % 8 = 0 ∧ s.arg.n₂ = 8 ∧ s.arg.bytes.length = 8 ∧
     0x80000 < s.arg.n₁ + 9) ∧
    (0x40 + 128 ≤ 0x80000 ∧ 0x40 / 128 < (0x40 + 128) / 128 ∧ ¬(0x40 / 128 < (0x40 + 8) / 128)) ∧
    (wHost 8 8 2 (List.replicate 8 7)).arg.n₃ = 2 ∧ (wHost 4 4 2 [7]).arg.n₁ % 8 ≠ 0 ∧
    (0x4000000000002000 : Word).getLsbD 63 = false ∧ (0xC000000000002000 : Word).getLsbD 63 = true ∧
    (let s := wHost 0x3F 1 3 [7]
     s.arg.n₃ = 3 ∧ s.alone = true ∧ s.uncached (lineOf (0x38000000000 + 0x3F)) = true ∧
     0x3F + 1 ≤ 0x8000000000 ∧ 0x3F / 64 = (0x3F + 1 - 1) / 64) := by decide +kernel

/-- The same statement: flips begun, under way with a line left and with none, refused; answers to
snoops, of data and of the line. -/
theorem witness_flips :
    (let s := { w1 with arg := { EventArg.none with w₁ := 0xC000000000002000 } }
     s.arg.w₁.toNat / 4096 % 2 ^ 32 = 2 ∧ regionOf (4096 * 2) = .hbm ∧ s.flips = [] ∧ 2 ∉ s.hostBias ∧
     2 ∈ { s with hostBias := [2] }.hostBias ∧ w1.choice.defer = false ∧
     (wDefer w1).choice.defer = true) ∧
    regionOf (4096 * (2 ^ 32 - 1)) ≠ .hbm ∧
    ({ w1 with flips := [⟨2, true, true, [0x2000]⟩] } : State).flips ≠ [] ∧
    (let f : Flip := ⟨2, false, true, [0x2000]⟩
     f.page = 2 ∧ f.lines = 0x2000 :: [] ∧ f.toHost = false ∧ f.command = true) ∧
    (let s := { w1 with snoop := [0x2000], arg := ev 1 0 0x2010 false }
     lineOf s.arg.n₃ ∈ s.snoop ∧ s.arg.n₁ = 1 ∧ s.arg.bytes = [] ∧ lineOf 0x4000 ∉ s.snoop) ∧
    (let s := { w1 with snoop := [0x2000], arg := ev 2 0 0x2010 false }
     lineOf s.arg.n₃ ∈ s.snoop ∧ 2 ≤ s.arg.n₁ ∧
     ∀ f ∈ s.flips, f.toHost = true ∨ lineOf s.arg.n₃ ∉ f.lines) := by decide +kernel

/-- Core 3, whose context is 4, at an address: size, operation. -/
def wCore (pa size op : Nat) : State := { w1 with
  arg := { ev 3 pa op true with w₂ := BitVec.ofNat 64 size, w₁ := 9 }
  cores := vset w1.cores 3 ⟨4, true, false, 0, 0, none⟩ }

/-- The same statement: a core's access to a word of HBM, with a context and with context 0, with a
reservation and without; of 16 bytes; a misaligned load and atomic; one outside memory. -/
theorem witness_cores :
    (let s := wCore 0x2008 8 3
     let c := vget s.cores 3 ⟨0, false, false, 0, 0, none⟩
     3 < 32 ∧ s.arg.n₂ + 8 ≤ 2 ^ 56 ∧ s.arg.w₂.toNat ∈ [1, 2, 4, 8] ∧ s.arg.n₂ % s.arg.w₂.toNat = 0 ∧
     s.alone = true ∧ plain s 0x2008 = true ∧ regionOf (localAddr 0x2008) = .hbm ∧
     c.dctx.toNat % 4096 ≠ 0 ∧ c.dctx.toNat / 2 ^ 16 % 4096 = 0 ∧ (3, 0x2000) ∉ s.reservations ∧
     lineOf (localAddr 0x2008) = 0x2000 ∧ s.isPresent (7 * 2 ^ 44) = false) ∧
    ((List.range 25).filter fun n => (coreOp n 0).isSome) =
      [0, 1, 2, 3, 4, 16, 17, 18, 19, 20, 21, 22, 23, 24] ∧
    (∀ n ∈ [0, 1], ∀ z ∈ [1, 2, 4, 8], (coreOp n 0).map (·.sizeOk z) = some true) ∧
    (∀ n ∈ [2, 3, 4, 16, 24], ∀ z ∈ [4, 8], (coreOp n 0).map (·.sizeOk z) = some true) ∧
    (coreOp 4 5).map (·.sizeOk 16) = some true ∧ (wCore 0x2010 16 4).arg.n₂ % 16 = 0 ∧
    (wCore 0x203F 2 0).arg.n₂ % 2 ≠ 0 ∧
    (∀ i < 2, (wCore 0x203F 2 0).isLocal (0x203F + i) = true ∧
      regionOf (localAddr (0x203F + i)) = .hbm ∧
      (wCore 0x203F 2 0).uncached (lineOf (localAddr (0x203F + i))) = true) := by decide +kernel

/-- ManagementServesTheDevice: units with an update waiting, verified, pending in time and late;
both kinds of sensor; ends of the cap; a spare free and used; bring-up before and after, of a
powered die and of one that failed. -/
theorem witness_management :
    (let f : Firmware := ⟨[1], [2], false, true, none, false⟩
     let s := { State.reset with mgmt := { Management.reset with
       firmware := vset Management.reset.firmware 5 f } }
     (vget s.mgmt.firmware 5 Firmware.reset).pending = none ∧
     (vget s.mgmt.firmware 5 Firmware.reset).verified = true ∧
     (vget s.mgmt.firmware 0 Firmware.reset).verified = false) ∧
    State.reset.parsing = [] ∧ recKind aRecord = 1 ∧ 0 ∈ recDies aRecord ∧ 1 ∉ recDies aRecord ∧
    { State.reset with parsing := [⟨1, 4, 7, some 0, none, aRecord⟩] }.parsing ≠ [] ∧
    ({ Firmware.reset with pending := some 0 } : Firmware).pending = some 0 ∧
    0 + 10000000000 ≤ { State.reset with gtc := 10000000000 }.gtc ∧
    State.reset.gtc < 0 + 10000000000 ∧
    (let s := { State.reset with arg := { ev 2400 5 0 false with tile := 40 } }
     s.arg.tile / 32 ∉ s.service.sparesUsed ∧ (s.getTile 40).place = none ∧
     (∀ g ∈ s.gangs, 40 ∉ g.tiles)) ∧
    40 / 32 ∈ { State.reset with service := ⟨[], [], [], none, [1]⟩ }.service.sparesUsed ∧
    (State.reset.tiles.filter fun p => decide (p.1 < 2048) && p.2.physical == 32) = [] ∧
    State.reset.arg.flag = false ∧ [7, 0xC00].filter (fun d => d != 7 && decide (d < 0xC00)) = [] ∧
    [7, 9].filter (fun d => d != 7 && decide (d < 0xC00)) = [9] ∧
    State.reset.mgmt.up = false ∧ { Management.reset with up := true }.up = true ∧
    (4 : Nat).testBit 2 = true ∧ (4 : Nat).testBit 0 = false ∧ 513 / 512 = 1 ∧
    (State.reset.getTile 513).run = .halted ∧ (State.reset.getTile 513).cr.ftvec = none := by
  decide +kernel

/-- MemoryStaysCanonical, StepRunsTheDecodedWord: a state in canonical form whose next step runs a
word that decodes, one whose word does not, and one of each kind of move. -/
theorem witness_steps :
    (let s := wCode [encode (.addi 0 2 1 4), 0]
     s.mem.wf = true ∧ s.agenda = [] ∧ s.tile.frame = none ∧ s.tile.run = .running ∧
     s.areas = [] ∧ s.tile.deferred = [] ∧ s.tile.dueInterrupt s.gtc = none ∧
     (let z := { s with who := .eh, exc := false }
      z.issuedWord = none ∧ z.detectFetch s.tile.eh.pc = z) ∧
     (let w := { s with tile := { s.tile with feWaits := [⟨0, .ldw, 0, 0, none, none, false, 7⟩] } }
      { w with who := .eh, exc := false }.issuedWord = some 7) ∧
     fetches { s with who := .eh, exc := false } s.tile.eh.pc (encode (.addi 0 2 1 4)) = true ∧
     isOk (decodeWord (encode (.addi 0 2 1 4))) (.addi 0 2 1 4) = true ∧
     (match step s with
      | .next t => !t.exc && !t.stopDue t.cur && t.reportsHeld.isEmpty && decide (t.pc = 0x1004) && decide (t.readX 2 = 0x2004)
      | .fault _ | .refused _ => false) = true ∧
     (match decodeWord 0 with | .ok _ => false | .error _ => true) = true) ∧
    encode .loadResponse = 0 := by decide +kernel

/-- DecodeEncodeRoundTrip, DecodedWordsAreEncodings: an instruction with a word, and one whose word
keeps a STALL field of its own. -/
theorem witness_encodings :
    (Instr.addi 7 31 31 0xFFF).wellFormed = true ∧ encode (.addi 7 31 31 0xFFF) ≠ 0 ∧
    isOk (decodeWord 0xE094AFF0) (.addi 7 10 10 0xFF0) = true ∧
    isOk (decodeWord 0xFFC00002) .eret = true := by decide +kernel

/-! ### Single steps; the results are worked out from the rules -/

/-- A field of the state after an instruction. -/
def after (i : Instr) (s : State) (f : State → Bool) : Bool :=
  match exec i s with
  | .next t => f t
  | .fault _ | .refused _ => false

/-- 03: LDHI puts its immediate 12 bits up and extends its sign; SRAI keeps the sign; SRL shifts by
the low six bits. -/
theorem test_ldhi : after (.ldhi 0 9 0x1FFFF) w1 (·.readX 9 == 0xFFFFFFFFFFFFF000) = true := by
  decide +kernel
theorem test_srai : after (.srai 7 4 4 3) (wx [(4, 0x8000000000000000)] w0)
    (·.readX 4 == 0xF000000000000000) = true := by decide +kernel
theorem test_srl : after (.srl 7 4 4 5) (wx [(4, 2 ^ 63), (5, 65)] w0)
    (·.readX 4 == 0x4000000000000000) = true := by decide +kernel

/-- 03: division by zero, and the quotient that does not fit. -/
theorem test_div : after (.div 7 4 5 6) (wx [(5, 7)] w0) (·.readX 4 == BitVec.allOnes 64) = true ∧
    after (.div 7 4 5 6) (wx [(5, 2 ^ 63), (6, BitVec.allOnes 64)] w0) (·.readX 4 == 2 ^ 63) = true ∧
    after (.rem 7 4 5 6) (wx [(5, 7)] w0) (·.readX 4 == 7) = true := by decide +kernel

/-- 02 R37: x0 discards. -/
theorem test_x0 : after (.addi 0 0 1 4) w1 (fun t => t.readX 0 == 0 && t.pc == 0x1004) = true := by
  decide +kernel

/-- 00 R1: the byte at the lowest address is the least significant. -/
theorem test_store_bytes : after (.sw 0 4 1 0) (wx [(4, 0x11223344), (1, 0x2000)] w0)
    (fun t => t.readByte 0x2000 == 0x44 && t.readByte 0x2003 == 0x11 && t.readByte 0x2004 == 0) =
      true := by decide +kernel

/-- 16 R404, R405: ECALL at APP without delegation enters FIRM with cause 0x14. -/
theorem test_ecall : after .ecall (wc (fun c => { c with ftvec := some 0x8000 }) (wApp w1))
    (fun t => t.pc == 0x8000 && t.tile.cr.ftcause == 0x14 && t.tile.cr.fepc == 0x1000 &&
      t.tile.level == 2) = true := by decide +kernel

/-- 08 R191: AMOADD.W returns the old word extended and wraps in its width. -/
theorem test_amoadd : after (.amoadd 0 4 1 2 0 0)
    ((wx [(1, 0x2000), (2, 1)] w0).writeMem 0 0x2000 4 0xFFFFFFFF)
    (fun t => t.readX 4 == BitVec.allOnes 64 && t.readMem 0x2000 8 == 0) = true := by decide +kernel

/-- A TMOV of an unsound register does nothing but leave a DATAERR with bit 63 and the word; a TCLR
makes the register sound. -/
theorem test_unsound_register :
    (after (.tmov 0 2 1) (wUnsound 1) fun t =>
      t.tile.deferred == [⟨Cause.dataerr.code, 0x8000000000000000#64 ||| (encode (.tmov 0 2 1)).setWidth 64,
        none⟩] && t.tile.t == (wUnsound 1).tile.t && t.tile.eh.pc == 0x1004 && (t.bank 0).w0 &&& 0xF0F == 0x303) = true ∧
    (after (.tclr 0 1) (wUnsound 1) fun t => t.tile.unsound == []) = true := by decide +kernel

/-- 09 R231: VREDQ with a count of 1 takes the message, counts down and completes. -/
theorem test_vredq : after (.vredq 0 4 1 2 0 .i64) (wChan [⟨7, 9⟩]) (fun t =>
    elem (t.readV 4) 64 0 == 9 && t.readX 1 == 0 && t.pc == 0x1004 &&
      (t.channel 2).entries == []) = true := by decide +kernel

/-- A bank whose element [0][0] is 300, drained to I8 rows of 8 bytes. -/
def wDrain (mx : Word) : State := wc (fun c => { c with mxcfg := mx, shape := vset c.shape 5 0x0801 })
  (w1.onTile fun t => t.setBankRow 2 0 (vset (Vector.replicate 64 0) 0 300))

/-- 10 R251: an INT-class value drained to I8 saturates, without a flag in SMODE 0 and with NV in
SMODE 2; Z zeroes it. -/
theorem test_mdrain :
    (after (.mdrain 0 2 5 1) (wDrain 0x18000) fun t => elem (t.tile.tileRow 5 0) 8 0 == 127 &&
      t.tile.cr.fpflags == 0 && vget (t.tile.bankRow 2 0) 0 1 == 0 && t.pc == 0x1004) = true ∧
    (after (.mdrain 0 2 5 0) (wDrain 0x1C000) fun t => t.tile.cr.fpflags == 16 &&
      vget (t.tile.bankRow 2 0) 0 1 == 300) = true := by decide +kernel

/-- 10 R253: MPSUM moves a row to four v registers and clears it. -/
theorem test_mpsum : after (.mpsum 0 4 2 0 0) (wDrain 0x1C000) (fun t =>
    elem (t.readV 4) 32 0 == 300 && vget (t.tile.bankRow 2 0) 0 1 == 0 && t.pc == 0x1004) = true := by
  decide +kernel

/-- Another device's store and its AMOADD are performed at the home here (14 R355, 08 R191). -/
theorem test_foreign_access :
    (let put : Foreign := ⟨0, 0, 3, 0x1008, 8, 1, 0xFFFFFFFF, 0, 0⟩
     let add : Foreign := { put with op := 16, size := 4, data := 2 }
     match step { w1 with agenda := [.foreign put, .foreign add] } with
     | .next s => (match step s with
       | .next t => s.readMem 0x1008 8 == 0xFFFFFFFF && t.readMem 0x1008 8 == 1 &&
           t.tagOf (0x1000 / 64) == some 3
       | .fault _ | .refused _ => false)
     | .fault _ | .refused _ => false) = true := by decide +kernel

/-- A load from an upset sector of a scratchpad takes DATAERR, and the tile's bank says so. -/
theorem test_upset_scratchpad :
    (let s := { wScratch with agenda := [.upset (0x10000000000 / 64) true] }
     match step s with
     | .next s => after (.ld 0 3 1 0) s fun t => t.tile.deferred.length == 1 &&
        t.lost (0x10000000000 / 64) && (t.bank 0).w0 &&& 0xF0F == 0x303
     | .fault _ | .refused _ => false) = true := by decide +kernel
end Sys2Proof.Tests
end

section
/-! The integer register forms (03 R61 to R63): what their shared forms leave, the values of their
operations as the rules state them, and the words of their major that are no instruction. -/

namespace Sys2Proof

/-! ### Words of MAJOR 0x01 -/

/-- The functs of MAJOR 0x01 end at 35 (02 R38). -/
theorem decodeIntr_of_funct_ge {w : Word32} (h : 36 ≤ (slice w 0 7).toNat) :
    decodeIntr w = .error .functUnassigned := by
  unfold decodeIntr
  split
  case h_37 => rfl
  all_goals omega

/-- A word of MAJOR 0x01 has the instruction that its funct chooses. -/
theorem decodeFields_of_major_one {w : Word32} (h : w.toNat / 2 ^ 22 % 128 = 1) :
    decodeFields w = decodeIntr w := by
  have hgroup : (slice w 26 3).toNat = 0 := by
    simp only [BitVec.extractLsb'_toNat, Nat.shiftRight_eq_div_pow]; omega
  have hmajor : slice w 22 7 ≠ 0#7 := by
    simp only [ne_eq, ← BitVec.toNat_inj, BitVec.extractLsb'_toNat, Nat.shiftRight_eq_div_pow]
    simp only [BitVec.toNat_ofNat]; omega
  have hlow : (slice w 22 4).toNat = 1 := by
    simp only [BitVec.extractLsb'_toNat, Nat.shiftRight_eq_div_pow]; omega
  simp only [decodeFields, hgroup, hmajor, if_false, decodeMajors0, hlow]

theorem decodeWord_of_decodeFields_error {w : Word32} {r : Reject}
    (h : decodeFields w = .error r) : decodeWord w = .error r := by
  simp only [decodeWord, h]

end Sys2Proof

namespace Sys2Proof.Machine

/-! ### The shared forms -/

@[simp] theorem Tile.core_setCore (t : Tile) (u : UnitId) (c : Core) :
    (t.setCore u c).core u = c := by
  cases u <;> rfl

@[simp] theorem setCore_core (s : State) (c : Core) : (s.setCore c).core = c :=
  Tile.core_setCore s.tile s.who c

@[simp] theorem writeX_pc (s : State) (d : XReg) (v : Word) (lat : Nat) (st : StallCode) :
    (s.writeX d v lat st).pc = s.pc := by
  unfold State.writeX
  split
  · rfl
  · simp [State.pc]

@[simp] theorem commitX_pc (s : State) (d : XReg) (v : Word) : (s.commitX d v).pc = s.pc := by
  unfold State.commitX
  split
  · rfl
  · simp [State.pc]

@[simp] theorem noteSide_false (s : State) : s.noteSide false = s := by
  simp [State.noteSide]

/-- What is ready for the reads of two registers is ready for that of the first. -/
theorem ready_of_ready_cons {s : State} {r r' : RegRef} {ws : List RegRef}
    (h : s.ready [r, r'] ws = true) : s.ready [r] ws = true := by
  simp only [State.ready, List.all_cons, List.all_nil, Bool.and_true, Bool.and_eq_true,
    Bool.or_eq_true] at h ⊢
  obtain ⟨⟨⟨hr, -⟩, hw⟩, hc⟩ := h
  exact ⟨⟨hr, hw⟩, hc.imp_right And.left⟩

/-- An instruction of every unit that only reads and writes registers runs when they are ready. -/
theorem issue_allUnits {s : State} {w : Word32} {st : StallCode} {rs ws : List RegRef}
    {body : State → State} (h : s.ready rs ws = true) :
    s.issue { word := w, stall := st, units := .all, reads := rs, writes := ws } body = body s :=
  issue_runs rfl rfl rfl h rfl (Nat.not_lt_zero _) rfl

section
variable {s : State} {i : Instr} {st : StallCode} {d a b : XReg} {lat : Nat} {v : Word}

theorem givesX_intRR {f : Word → Word → Word} (h : s.ready [.x a, .x b] [.x d] = true)
    (hi : exec i s = .next (intRR i st d a b lat f s)) (hv : f (s.readX a) (s.readX b) = v) :
    GivesX i s st d v lat := by
  subst hv
  refine ⟨_, hi, ?_⟩
  simp only [intRR, issue_allUnits h, State.finish, State.finishAt, noteSide_false, writeX_pc,
    Bool.false_eq_true, if_false]
  exact writeX_wrote ..

theorem givesX_intDiv {f : Word → Word → Word} (h : s.ready [.x a, .x b] [.x d] = true)
    (hi : exec i s = .next (intDiv i st d a b f s)) (hv : f (s.readX a) (s.readX b) = v) :
    GivesX i s st d v 0 := by
  subst hv
  refine ⟨_, hi, ?_⟩
  simp only [intDiv, issue_allUnits h, State.finish, State.finishAt, noteSide_false, commitX_pc,
    Bool.false_eq_true, if_false]
  exact commitX_wrote ..

theorem givesX_intR {f : Word → Word} (h : s.ready [.x a] [.x d] = true)
    (hi : exec i s = .next (intR i st d a lat f s)) (hv : f (s.readX a) = v) :
    GivesX i s st d v lat := by
  subst hv
  refine ⟨_, hi, ?_⟩
  simp only [intR, issue_allUnits h, State.finish, State.finishAt, noteSide_false, writeX_pc,
    Bool.false_eq_true, if_false]
  exact writeX_wrote ..

end

/-! ### Shifts and rotations by a register (R62) -/

theorem shiftAmount_eq (b : Word) : shiftAmount b = b.toNat % 64 := by
  simp [shiftAmount]

theorem opSll_eq (a b : Word) : opSll a b = a <<< (b.toNat % 64) := by
  rw [opSll, shiftAmount_eq]

theorem opSrl_eq (a b : Word) : opSrl a b = a >>> (b.toNat % 64) := by
  rw [opSrl, shiftAmount_eq]

theorem opSra_eq (a b : Word) : opSra a b = a.sshiftRight (b.toNat % 64) := by
  rw [opSra, shiftAmount_eq]

theorem opRol_eq (a b : Word) :
    opRol a b = a <<< (b.toNat % 64) ||| a >>> (64 - b.toNat % 64) := by
  rw [opRol, shiftAmount_eq, BitVec.rotateLeft_def, Nat.mod_mod]

theorem opRor_eq (a b : Word) :
    opRor a b = a >>> (b.toNat % 64) ||| a <<< (64 - b.toNat % 64) := by
  rw [opRor, shiftAmount_eq, BitVec.rotateRight_def, Nat.mod_mod]

/-! ### Minima and maxima (R62) -/

theorem opMin_eq (a b : Word) : opMin a b = BitVec.ofInt 64 (min a.toInt b.toInt) := by
  unfold opMin
  split
  case isTrue h => rw [Int.min_eq_right (Int.le_of_lt h), BitVec.ofInt_toInt]
  case isFalse h => rw [Int.min_eq_left (Int.not_lt.mp h), BitVec.ofInt_toInt]

theorem opMax_eq (a b : Word) : opMax a b = BitVec.ofInt 64 (max a.toInt b.toInt) := by
  unfold opMax
  split
  case isTrue h => rw [Int.max_eq_right (Int.le_of_lt h), BitVec.ofInt_toInt]
  case isFalse h => rw [Int.max_eq_left (Int.not_lt.mp h), BitVec.ofInt_toInt]

theorem opMinu_eq (a b : Word) : opMinu a b = BitVec.ofNat 64 (min a.toNat b.toNat) := by
  unfold opMinu
  split
  case isTrue h => rw [Nat.min_eq_right (Nat.le_of_lt h), BitVec.ofNat_toNat, BitVec.setWidth_eq]
  case isFalse h => rw [Nat.min_eq_left (Nat.not_lt.mp h), BitVec.ofNat_toNat, BitVec.setWidth_eq]

theorem opMaxu_eq (a b : Word) : opMaxu a b = BitVec.ofNat 64 (max a.toNat b.toNat) := by
  unfold opMaxu
  split
  case isTrue h => rw [Nat.max_eq_right (Nat.le_of_lt h), BitVec.ofNat_toNat, BitVec.setWidth_eq]
  case isFalse h => rw [Nat.max_eq_left (Nat.not_lt.mp h), BitVec.ofNat_toNat, BitVec.setWidth_eq]

/-! ### Products, quotients and remainders (R62, R63) -/

/-- The low half of the product is the same of signed and of unsigned operands. -/
theorem opMul_eq (a b : Word) : opMul a b = a * b := by
  rw [opMul, BitVec.ofInt_mul, BitVec.ofInt_toInt, BitVec.ofInt_toInt]

theorem opDivu_eq (a b : Word) : opDivu a b = if b = 0 then BitVec.allOnes 64 else a / b := by
  rw [opDivu, BitVec.udiv_def]

theorem opRem_eq (a b : Word) :
    opRem a b = if b = 0 then a else BitVec.ofInt 64 (a.toInt.tmod b.toInt) := by
  rw [opRem, Int.tmod_def, Int.mul_comm b.toInt]

theorem opRemu_eq (a b : Word) : opRemu a b = if b = 0 then a else a % b := by
  rw [opRemu, BitVec.umod_def, Nat.mod_eq_sub_div_mul]

/-! ### Scaled sums (R62) -/

theorem opShadd1_eq (a b : Word) : opShadd1 a b = (a <<< 1) + b := by
  rw [opShadd1, BitVec.shiftLeft_eq_mul_twoPow]; rfl

theorem opShadd2_eq (a b : Word) : opShadd2 a b = (a <<< 2) + b := by
  rw [opShadd2, BitVec.shiftLeft_eq_mul_twoPow]; rfl

theorem opShadd3_eq (a b : Word) : opShadd3 a b = (a <<< 3) + b := by
  rw [opShadd3, BitVec.shiftLeft_eq_mul_twoPow]; rfl

/-! ### Counts of bits (R62) -/

/-- Zero bits above the low `n` bits add to the leading zeros of these. -/
theorem leadingZeros_add (a : Word) (n k : Nat) (h : ∀ j < k, a.getLsbD (n + j) = false) :
    leadingZeros a (n + k) = leadingZeros a n + k := by
  induction k with
  | zero => rfl
  | succ k ih =>
    have htop : bitAt a (n + k) = false := h k k.lt_succ_self
    rw [← Nat.add_assoc, leadingZeros, htop, if_neg Bool.false_ne_true,
      ih fun j hj => h j (Nat.lt_succ_of_lt hj), Nat.add_assoc]

theorem leadingZeros_of_top {a : Word} {n : Nat} (h : 0 < n → a.getLsbD (n - 1) = true) :
    leadingZeros a n = 0 := by
  cases n with
  | zero => rfl
  | succ n =>
    have htop : bitAt a n = true := h n.succ_pos
    rw [leadingZeros, if_pos htop]

theorem opClz_eq {a : Word} {k : Nat} (hk : k ≤ 64) (hlt : a.toNat < 2 ^ (64 - k))
    (hge : k < 64 → 2 ^ (63 - k) ≤ a.toNat) : opClz a = BitVec.ofNat 64 k := by
  have hzero : ∀ j < k, a.getLsbD (64 - k + j) = false := fun j _ =>
    Nat.testBit_lt_two_pow
      (Nat.lt_of_lt_of_le hlt (Nat.pow_le_pow_right (by decide) (Nat.le_add_right ..)))
  have hone : 0 < 64 - k → a.getLsbD (64 - k - 1) = true := fun hpos => by
    rw [show 64 - k - 1 = 63 - k by omega]
    refine Nat.testBit_of_two_pow_le_and_two_pow_add_one_gt (hge (by omega)) ?_
    rwa [show 63 - k + 1 = 64 - k by omega]
  have hcount := leadingZeros_add a (64 - k) k hzero
  rw [Nat.sub_add_cancel hk, leadingZeros_of_top hone, Nat.zero_add] at hcount
  rw [opClz, hcount]

/-- Zero bits below the `n` bits from `m + k` add to the trailing zeros of these. -/
theorem trailingZeros_add (a : Word) (m k n : Nat) (h : ∀ j < k, a.getLsbD (m + j) = false) :
    trailingZeros a m (n + k) = trailingZeros a (m + k) n + k := by
  induction k generalizing m with
  | zero => rfl
  | succ k ih =>
    have hlow : bitAt a m = false := h 0 k.succ_pos
    have hrest : ∀ j < k, a.getLsbD (m + 1 + j) = false := fun j hj => by
      rw [Nat.add_right_comm]; exact h (j + 1) (Nat.succ_lt_succ hj)
    rw [← Nat.add_assoc, trailingZeros, hlow, if_neg Bool.false_ne_true, ih _ hrest,
      Nat.add_right_comm m 1 k, Nat.add_assoc, Nat.add_assoc]

theorem trailingZeros_of_low {a : Word} {m n : Nat} (h : 0 < n → a.getLsbD m = true) :
    trailingZeros a m n = 0 := by
  cases n with
  | zero => rfl
  | succ n =>
    have hlow : bitAt a m = true := h n.succ_pos
    rw [trailingZeros, if_pos hlow]

theorem opCtz_eq {a : Word} {k : Nat} (hk : k ≤ 64) (hzero : ∀ j < k, a.getLsbD j = false)
    (hone : k < 64 → a.getLsbD k = true) : opCtz a = BitVec.ofNat 64 k := by
  have hcount := trailingZeros_add a 0 k (64 - k) (by simpa using hzero)
  rw [Nat.sub_add_cancel hk, Nat.zero_add,
    trailingZeros_of_low fun hpos => hone (Nat.sub_pos_iff_lt.mp hpos), Nat.zero_add] at hcount
  rw [opCtz, hcount]

theorem onesBelow_eq (a : Word) (n : Nat) :
    onesBelow a n = ((List.range n).filter fun j => a.getLsbD j).length := by
  induction n with
  | zero => rfl
  | succ n ih =>
    rw [onesBelow, ih, List.range_succ, List.filter_append, List.length_append]
    cases h : a.getLsbD n <;> simp [h]

theorem opCpop_eq (a : Word) :
    opCpop a = BitVec.ofNat 64 ((List.range 64).filter fun j => a.getLsbD j).length := by
  rw [opCpop, onesBelow_eq]

/-! ### Extensions (R62) -/

/-- The low bits of an image are the image cut to their number. -/
theorem slice_zero_eq_setWidth (a : Word) {n : Nat} (h : n ≤ 64) : slice a 0 n = a.setWidth n :=
  (BitVec.setWidth_eq_extractLsb' h).symm

theorem opSextb_eq (a : Word) : opSextb a = (a.setWidth 8).signExtend 64 := by
  rw [opSextb, slice_zero_eq_setWidth a (by decide)]

theorem opSexth_eq (a : Word) : opSexth a = (a.setWidth 16).signExtend 64 := by
  rw [opSexth, slice_zero_eq_setWidth a (by decide)]

theorem opSextw_eq (a : Word) : opSextw a = (a.setWidth 32).signExtend 64 := by
  rw [opSextw, slice_zero_eq_setWidth a (by decide)]

theorem opZextw_eq (a : Word) : opZextw a = (a.setWidth 32).setWidth 64 := by
  rw [opZextw, slice_zero_eq_setWidth a (by decide)]

/-! ### The statement -/

/-- Settles O1: each form is one of the three shared ones, whose result is X[d] at its latency, and
its operation has the value that the rule states. -/
theorem integerRegisterForms : Obligations.IntegerRegisterForms := by
  unfold Obligations.IntegerRegisterForms
  refine ⟨fun w hmajor hfunct => ⟨.functUnassigned, ?_⟩, fun s st d a b _ hready => ?_⟩
  · have hslice : 36 ≤ (slice w 0 7).toNat := by simpa using hfunct
    exact decodeWord_of_decodeFields_error
      ((decodeFields_of_major_one hmajor).trans (decodeIntr_of_funct_ge hslice))
  · have hready₁ : s.ready [.x a] [.x d] = true := ready_of_ready_cons hready
    exact ⟨
      -- ADD, SUB, AND, OR, XOR, ANDN, ORN
      givesX_intRR hready rfl rfl,
      givesX_intRR hready rfl rfl,
      givesX_intRR hready rfl rfl,
      givesX_intRR hready rfl rfl,
      givesX_intRR hready rfl rfl,
      givesX_intRR hready rfl rfl,
      givesX_intRR hready rfl rfl,
      -- SLL, SRL, SRA, ROL, ROR
      givesX_intRR hready rfl (opSll_eq ..),
      givesX_intRR hready rfl (opSrl_eq ..),
      givesX_intRR hready rfl (opSra_eq ..),
      givesX_intRR hready rfl (opRol_eq ..),
      givesX_intRR hready rfl (opRor_eq ..),
      -- SLT, SLTU, MIN, MAX, MINU, MAXU
      givesX_intRR hready rfl rfl,
      givesX_intRR hready rfl rfl,
      givesX_intRR hready rfl (opMin_eq ..),
      givesX_intRR hready rfl (opMax_eq ..),
      givesX_intRR hready rfl (opMinu_eq ..),
      givesX_intRR hready rfl (opMaxu_eq ..),
      -- MUL, MULH, MULHU, MULHSU
      givesX_intRR hready rfl (opMul_eq ..),
      givesX_intRR hready rfl rfl,
      givesX_intRR hready rfl rfl,
      givesX_intRR hready rfl rfl,
      -- DIV, DIVU, REM, REMU
      givesX_intDiv hready rfl rfl,
      givesX_intDiv hready rfl (opDivu_eq ..),
      givesX_intDiv hready rfl (opRem_eq ..),
      givesX_intDiv hready rfl (opRemu_eq ..),
      -- SHADD1, SHADD2, SHADD3
      givesX_intRR hready rfl (opShadd1_eq ..),
      givesX_intRR hready rfl (opShadd2_eq ..),
      givesX_intRR hready rfl (opShadd3_eq ..),
      -- CLZ, CTZ, CPOP
      fun _ hk hlt hge => givesX_intR hready₁ rfl (opClz_eq hk hlt hge),
      fun _ hk hzero hone => givesX_intR hready₁ rfl (opCtz_eq hk hzero hone),
      givesX_intR hready₁ rfl (opCpop_eq _),
      -- SEXTB, SEXTH, SEXTW, ZEXTW
      givesX_intR hready₁ rfl (opSextb_eq _),
      givesX_intR hready₁ rfl (opSexth_eq _),
      givesX_intR hready₁ rfl (opSextw_eq _),
      givesX_intR hready₁ rfl (opZextw_eq _)⟩

end Sys2Proof.Machine
end

section
/-! Branches, jumps and the branch-outcome queues (04 R69, R70, R81 to R83, R86): where each goes
once it runs, and what BQPUSH does to the queue that it fills. -/

namespace Sys2Proof.Machine

/-! ### Issue and completion -/

/-- An instruction that neither serializes nor uses the vector unit does not wait when its registers
are ready. -/
theorem mustWait_of_ready {s : State} {i : Issue} (hs : i.serial = false) (hv : i.vector = false)
    (hr : s.ready i.reads i.writes = true) : s.mustWait i = false := by
  simp only [State.ready, Bool.and_eq_true, List.all_eq_true, Bool.not_eq_true'] at hr
  obtain ⟨⟨hreads, hwrites⟩, -⟩ := hr
  simp only [State.mustWait, hs, hv, Bool.false_and, Bool.false_or, Bool.or_eq_false_iff,
    List.any_eq_false, Bool.not_eq_true]
  exact ⟨⟨fun r hmem => (hreads r hmem).1, hwrites⟩, fun r hmem => (hreads r hmem).2⟩

/-- 02 R40: where an instruction would run, its condition of ILLOP comes first. -/
theorem issue_illegal {s : State} {i : Issue} {body : State → State}
    (hu : i.units.has s.who = true) (hs : i.serial = false) (hv : i.vector = false)
    (hr : s.ready i.reads i.writes = true) (hi : i.illegal s = true) :
    s.issue i body = s.illop i.word := by
  simp [State.issue, hu, hs, hi, mustWait_of_ready hs hv hr]

/-- An instruction that is no side effect completes by going on. -/
theorem finishAt_of_not_side {s : State} {i : Issue} (hside : i.side = false)
    (hserial : i.serial = false) (pc : Word) : s.finishAt i pc = s.goTo pc (stallWait i.stall) := by
  simp [State.finishAt, hside, hserial]

@[simp] theorem noteSide_pc (s : State) (b : Bool) : (s.noteSide b).pc = s.pc := by
  unfold State.noteSide
  split
  · cases hwho : s.who <;> simp [State.pc, State.core, Tile.core, hwho]
  · rfl

/-- A side effect is noted, and the next word follows. -/
theorem finish_of_side {s : State} {i : Issue} (hside : i.side = true)
    (hserial : i.serial = false) : s.finish i = (s.noteSide true).advance i.stall := by
  simp [State.finish, State.finishAt, State.advance, hside, hserial]

/-- A sequencer runs no task (15 R396). -/
theorem noteSide_of_as {s : State} (h : s.who = .as) (b : Bool) : s.noteSide b = s := by
  simp [State.noteSide, h]

/-! ### Branches and jumps (R69, R70) -/

/-- R69: a conditional branch whose registers are ready goes to its target where its condition
holds, and to the next word where it does not. -/
theorem branchOn_eq_goTo {s : State} {i : Instr} {st : StallCode} {a b : XReg} {o : BitVec 12}
    {c : Word → Word → Bool} {p : Prop} [Decidable p] (hr : s.ready [.x a, .x b] [] = true)
    (hc : c (s.readX a) (s.readX b) = true ↔ p) :
    branchOn i st a b o c s =
      s.goTo (if p then s.pc + o.signExtend 64 * 4 else s.pc + 4) (stallWait st) := by
  simp only [branchOn, issue_allUnits hr, finishAt_of_not_side, hc, branchTarget]

/-- A word address has its two low bits clear (R70). -/
theorem slice_zero_two_eq_zero_iff (t : Word) : slice t 0 2 = 0 ↔ t.toNat % 4 = 0 := by
  rw [← BitVec.toNat_inj, slice_zero_eq_setWidth t (by decide)]
  simp

section
variable {s : State} {st : StallCode} {d a : XReg}

/-- R70: JAL links the next word's address and goes to its target. -/
theorem exec_jal {o : BitVec 17} (hr : s.ready [] [.x d] = true) :
    exec (.jal st d o) s = .next
      ((s.writeX d (s.pc + 4) 1 st).goTo (s.pc + o.signExtend 64 * 4) (stallWait st)) :=
  congrArg Host.Outcome.next (by rw [issue_allUnits hr, finishAt_of_not_side rfl rfl, jumpTarget])

/-- R70: JALR computes its target before it links; a misaligned one traps and links nothing. -/
theorem exec_jalr {i : BitVec 12} (hr : s.ready [.x a] [.x d] = true) :
    exec (.jalr st d a i) s = .next
      (if (s.readX a + i.signExtend 64).toNat % 4 = 0 then
        (s.writeX d (s.pc + 4) 1 st).goTo (s.readX a + i.signExtend 64) (stallWait st)
      else s.raise ⟨.misalign, s.readX a + i.signExtend 64, none⟩) := by
  refine congrArg Host.Outcome.next ?_
  rw [issue_allUnits hr]
  simp only [← slice_zero_two_eq_zero_iff, ne_eq, ite_not, finishAt_of_not_side]

end

/-! ### BQT and BQF (R83, R86) -/

section
variable {s : State} {i : Instr} {st : StallCode} {o : BitVec 17} {want : Bool}

/-- R86: an empty queue holds the instruction up in wait state 1. -/
theorem branchQueue_of_empty (hr : s.ready [] [] = true) (hq : s.boq = []) :
    branchQueue i st o want s = s.stay 1 := by
  simp only [branchQueue, issue_allUnits hr, hq]

/-- R83: the oldest outcome leaves the queue, and the branch is taken where it is the wanted one. -/
theorem branchQueue_of_cons {b : Bool} {rest : List Bool} (hr : s.ready [] [] = true)
    (hq : s.boq = b :: rest) :
    branchQueue i st o want s = (s.setBoq rest).goTo
      (if b = want then s.pc + o.signExtend 64 * 4 else s.pc + 4) (stallWait st) := by
  simp only [branchQueue, issue_allUnits hr, hq, finishAt_of_not_side, jumpTarget, beq_iff_eq]

end

/-! ### BQPUSH (R82, R86) -/

/-- The queue that BQPUSH with F[0] = `t` appends to: the execute hart's to a sequencer, or the
access sequencer's to the execute hart (R82). -/
def State.outgoing (s : State) (t : BitVec 1) : List Bool :=
  if s.who = .as then s.tile.boqE else if t = 0 then s.tile.boqA else s.tile.boqS

/-- The same queue replaced. -/
def State.setOutgoing (s : State) (t : BitVec 1) (q : List Bool) : State :=
  s.onTile fun tl =>
    if s.who = .as then { tl with boqE := q }
    else if t = 0 then { tl with boqA := q }
    else { tl with boqS := q }

section
variable {s : State} {st : StallCode} {a : XReg} {t : BitVec 1}

/-- R82, R86: a legal BQPUSH waits in state 2 on a full queue, and otherwise appends X[a] ≠ 0. -/
theorem exec_bqpush (hunit : Units.ehAs.has s.who = true) (hr : s.ready [.x a] [] = true)
    (hlegal : (s.who == .as && t != 0) = false) :
    exec (.bqpush st a t) s = .next
      (if 16 ≤ (s.outgoing t).length then s.stay 2
      else ((s.setOutgoing t (s.outgoing t ++ [decide (s.readX a ≠ 0)])).noteSide true).advance
        st) := by
  refine congrArg Host.Outcome.next ?_
  have houtcome : (s.readX a != 0) = decide (s.readX a ≠ 0) := Bool.eq_iff_iff.mpr (by simp)
  rw [issue_runs hunit rfl rfl hr hlegal (Nat.not_lt_zero _) rfl]
  simp only [finish_of_side, houtcome]
  rfl

/-- The two cases of a legal BQPUSH: its queue has room, or is full. -/
theorem bqpush_cases {queue : List Bool} {s' : State} (hunit : Units.ehAs.has s.who = true)
    (hr : s.ready [.x a] [] = true) (hlegal : (s.who == .as && t != 0) = false)
    (hqueue : s.outgoing t = queue)
    (hput : (s.setOutgoing t (queue ++ [decide (s.readX a ≠ 0)])).noteSide true = s') :
    (queue.length < 16 → exec (.bqpush st a t) s = .next (s'.advance st)) ∧
    (16 ≤ queue.length → exec (.bqpush st a t) s = .next (s.stay 2)) := by
  rw [exec_bqpush hunit hr hlegal, hqueue, hput]
  exact ⟨fun hroom => by rw [if_neg (Nat.not_le.mpr hroom)], fun hfull => by rw [if_pos hfull]⟩

/-- R82: F[0] is reserved for the access sequencer. -/
theorem exec_bqpush_of_as_one (hwho : s.who = .as) (hr : s.ready [.x a] [] = true) :
    exec (.bqpush st a 1) s = .next (s.illop (encode (.bqpush st a 1))) :=
  congrArg Host.Outcome.next
    (issue_illegal (by rw [hwho]; rfl) rfl rfl hr (by simp [hwho]))

theorem outgoing_of_eh (hwho : s.who = .eh) :
    s.outgoing t = if t = 0 then s.tile.boqA else s.tile.boqS := by
  simp [State.outgoing, hwho]

theorem setOutgoing_of_eh (hwho : s.who = .eh) (q : List Bool) :
    s.setOutgoing t q = { s with
      tile := if t = 0 then { s.tile with boqA := q } else { s.tile with boqS := q } } := by
  simp [State.setOutgoing, State.onTile, hwho]

theorem outgoing_of_as (hwho : s.who = .as) : s.outgoing t = s.tile.boqE := by
  simp [State.outgoing, hwho]

theorem setOutgoing_of_as (hwho : s.who = .as) (q : List Bool) :
    s.setOutgoing t q = { s with tile := { s.tile with boqE := q } } := by
  simp [State.setOutgoing, State.onTile, hwho]

end

/-! ### The statement -/

/-- Settles O3: the branches differ in the condition that they pass to `branchOn`, BQT and BQF in
the outcome that they want, and BQPUSH in the queue that its unit and F[0] choose.
That a misaligned JALR leaves MFINFO alone is the model's choice (log 29). -/
theorem branchesJumpsAndOutcomeQueues : Obligations.BranchesJumpsAndOutcomeQueues := by
  unfold Obligations.BranchesJumpsAndOutcomeQueues
  refine ⟨⟨?branches, ?jal, ?jalr⟩, ?branchQueues, ?pushFromHart, ?pushFromSequencer⟩
  case branches =>
    intro s st a b o _ hr
    exact ⟨congrArg _ (branchOn_eq_goTo hr beq_iff_eq),
      congrArg _ (branchOn_eq_goTo hr bne_iff_ne),
      congrArg _ (branchOn_eq_goTo hr decide_eq_true_iff),
      congrArg _ (branchOn_eq_goTo hr decide_eq_true_iff),
      congrArg _ (branchOn_eq_goTo hr decide_eq_true_iff),
      congrArg _ (branchOn_eq_goTo hr decide_eq_true_iff)⟩
  case jal =>
    intro s st d o _ hr
    exact ⟨_, exec_jal hr, writeX_wrote ..⟩
  case jalr =>
    intro s st d a i _ hr
    dsimp only
    rw [exec_jalr hr]
    exact ⟨fun haligned => ⟨_, by rw [if_pos haligned], writeX_wrote ..⟩,
      fun hmisaligned => by rw [if_neg hmisaligned]⟩
  case branchQueues =>
    intro s st o _ hr
    exact ⟨fun hempty => ⟨congrArg _ (branchQueue_of_empty hr hempty),
        congrArg _ (branchQueue_of_empty hr hempty)⟩,
      fun b rest hcons => ⟨congrArg _ (branchQueue_of_cons hr hcons),
        congrArg _ (branchQueue_of_cons hr hcons)⟩⟩
  case pushFromHart =>
    intro s st a hwho hr
    have hunit : Units.ehAs.has s.who = true := by rw [hwho]; rfl
    have hlegal (t : BitVec 1) : (s.who == .as && t != 0) = false := by rw [hwho]; rfl
    obtain ⟨hroomA, hfullA⟩ := bqpush_cases (st := st) hunit hr (hlegal 0)
      (outgoing_of_eh hwho) (congrArg (·.noteSide true) (setOutgoing_of_eh hwho _))
    obtain ⟨hroomS, hfullS⟩ := bqpush_cases (st := st) hunit hr (hlegal 1)
      (outgoing_of_eh hwho) (congrArg (·.noteSide true) (setOutgoing_of_eh hwho _))
    exact ⟨hroomA, hfullA, hroomS, hfullS⟩
  case pushFromSequencer =>
    intro s st a hwho hr
    obtain ⟨hroom, hfull⟩ := bqpush_cases (st := st) (t := 0) (by rw [hwho]; rfl) hr (by simp)
      (outgoing_of_as hwho)
      ((noteSide_of_as (s := s.setOutgoing 0 _) hwho true).trans (setOutgoing_of_as hwho _))
    exact ⟨hroom, hfull, exec_bqpush_of_as_one hwho hr⟩

end Sys2Proof.Machine
end

section
/-! Vector registers, elements and masks (05 R92, 06 R144, 09 R216 to R219): when a vector
instruction runs, what its result leaves, and the elements of an image that it packs. -/

namespace Sys2Proof.Machine

/-! ### Issue of a vector instruction -/

/-- What is ready for some registers is ready for fewer. -/
theorem ready_of_subset {s : State} {rs rs' ws ws' : List RegRef} (h : s.ready rs ws = true)
    (hr : rs' ⊆ rs) (hw : ws' ⊆ ws) : s.ready rs' ws' = true := by
  simp only [State.ready, Bool.and_eq_true, Bool.or_eq_true, List.all_eq_true] at h ⊢
  obtain ⟨⟨hreads, hwrites⟩, hshort⟩ := h
  exact ⟨⟨fun r hmem => hreads r (hr hmem), fun r hmem => hwrites r (hw hmem)⟩,
    hshort.imp_right fun hnone r hmem => hnone r (hr hmem)⟩

/-- The registers that `State.vectorReady` speaks of. -/
def vectorRegs (v : List VReg) (m : List MReg) (x : List XReg) : List RegRef :=
  vReads v ++ m.map .m ++ x.map .x

theorem vectorRegs_subset {v v' : List VReg} {m m' : List MReg} {x x' : List XReg}
    (hv : v' ⊆ v) (hm : m' ⊆ m) (hx : x' ⊆ x) : vectorRegs v' m' x' ⊆ vectorRegs v m x := by
  intro r hr
  simp only [vectorRegs, List.mem_append] at hr ⊢
  exact hr.imp (Or.imp (List.map_subset _ hv ·) (List.map_subset _ hm ·)) (List.map_subset _ hx ·)

theorem vectorReady_iff {s : State} {v : List VReg} {m : List MReg} {x : List XReg} :
    s.vectorReady v m x = true ↔ s.vectorUnit = true ∧ (∀ r ∈ v, s.tile.bound r.toNat = false) ∧
      s.ready (vectorRegs v m x) (vectorRegs v m x) = true := by
  simp only [State.vectorReady, vectorRegs, vReads, Bool.and_eq_true, List.all_eq_true,
    Bool.not_eq_true', and_assoc]

section
variable {s : State} {v v' : List VReg} {m m' : List MReg} {x x' : List XReg}

theorem vectorReady_of_subset (h : s.vectorReady v m x = true) (hv : v' ⊆ v) (hm : m' ⊆ m)
    (hx : x' ⊆ x) : s.vectorReady v' m' x' = true := by
  obtain ⟨hunit, hbound, hready⟩ := vectorReady_iff.mp h
  have hsub := vectorRegs_subset hv hm hx
  exact vectorReady_iff.mpr ⟨hunit, fun r hmem => hbound r (hv hmem),
    ready_of_subset hready hsub hsub⟩

theorem unbound_of_vectorReady (h : s.vectorReady v m x = true) {l : List VReg} (hl : l ⊆ v) :
    ∀ r ∈ l, s.tile.bound r.toNat = false := by
  obtain ⟨-, hbound, -⟩ := vectorReady_iff.mp h
  exact fun r hmem => hbound r (hl hmem)

/-- A vector instruction runs where its registers are among those that stand ready (04 R77). -/
theorem issue_vector {w : Word32} {st : StallCode} {rs ws : List RegRef} {body : State → State}
    (h : s.vectorReady v m x = true) (hr : rs ⊆ vectorRegs v m x) (hw : ws ⊆ vectorRegs v m x) :
    s.issue { word := w, stall := st, vector := true, reads := rs, writes := ws } body =
      body s := by
  obtain ⟨hunit, -, hready⟩ := vectorReady_iff.mp h
  have hwho : (s.who = .eh ∧ s.tile.frame = none) ∨ s.who = .vs := by
    simpa [State.vectorUnit] using hunit
  refine issue_runs ?_ rfl ?_ (ready_of_subset hready hr hw) rfl (Nat.not_lt_zero _) rfl
  · obtain ⟨heh, -⟩ | hvs := hwho
    · rw [heh]; rfl
    · rw [hvs]; rfl
  · obtain ⟨-, hframe⟩ | hvs := hwho
    · simp [hframe]
    · simp [hvs]

end

/-! ### v registers that no queue is bound to (06 R144) -/

section
variable {s : State} {l l' : List VReg}

theorem queueWait_of_unbound (h : ∀ r ∈ l, s.tile.bound r.toNat = false)
    (h' : ∀ r ∈ l', s.tile.bound r.toNat = false) : s.queueWait l l' = none := by
  unfold State.queueWait
  split
  next k hk =>
    obtain ⟨r, hmem, hr⟩ := List.exists_of_findSome?_eq_some hk
    simp [h r hmem] at hr
  next =>
    refine if_neg fun hfull => ?_
    obtain ⟨r, hmem, hr⟩ := List.any_eq_true.mp hfull
    simp [h' r hmem] at hr

theorem popAll_of_unbound (h : ∀ r ∈ l, s.tile.bound r.toNat = false) : s.popAll l = s := by
  have hnone : (l.eraseDups.filter fun r => s.tile.bound r.toNat) = [] :=
    List.filter_eq_nil_iff.mpr fun r hmem => by simp [h r (List.mem_eraseDups.mp hmem)]
  rw [State.popAll, hnone, List.foldl_nil]

theorem usesQueue_of_unbound (h : ∀ r ∈ l, s.tile.bound r.toNat = false) :
    s.tile.usesQueue l = false :=
  List.any_eq_false.mpr fun r hmem => by simp [h r hmem]

end

/-! ### Results of fixed latency (02 R45) -/

theorem finish_of_not_side {s : State} {i : Issue} (hside : i.side = false)
    (hserial : i.serial = false) : s.finish i = s.advance i.stall :=
  finishAt_of_not_side hside hserial _

@[simp] theorem orFlags_zero (s : State) : s.orFlags 0 = s := by
  simp [State.orFlags, State.onTile]

theorem RegFile.write_late {n w : Nat} (f : RegFile n w) (r : Nat) (v : BitVec w)
    (cur at_ next : Nat) (rep : Bool) : (f.write r v cur at_ next rep).late = f.late := by
  unfold RegFile.write
  split <;> rfl

section
variable {s : State} {i : Instr} {st : StallCode} {lat : Nat} {fl : FpFlags}

/-- A fixed-latency write of a v register is a new register file with the reads of 02 R45. -/
theorem givesV_of_exec {d : VReg} {v : Vec} (h : exec i s =
    .next (((s.orFlags fl).writeVReg d.toNat v lat st).advance st)) :
    GivesV i s st d v lat fl := by
  refine ⟨s.tile.v.write d.toNat v s.pos (s.pos + lat) (s.pos + 1 + stallWait st) (s.who == .vs),
    h, RegFile.write_late .., fun r p hp => ?_⟩
  exact RegFile.write_read _ _ _ _ _ _ _ _ _ d.isLt (by omega) hp

/-- The same for an m register; m0 discards the write (02 R37). -/
theorem givesM_of_exec {d : MReg} {v : Word} (h : exec i s =
    .next (((s.orFlags fl).writeM d v lat st).advance st)) : GivesM i s st d v lat fl := by
  by_cases hd : d = 0
  · rw [State.writeM, if_pos hd] at h
    exact ⟨s.tile.m, h, rfl, fun r p _ => by simp [hd]⟩
  · rw [State.writeM, if_neg hd] at h
    refine ⟨s.tile.m.write d.toNat v s.pos (s.pos + lat) (s.pos + 1 + stallWait st)
      (s.who == .vs), h, RegFile.write_late .., fun r p hp => ?_⟩
    rw [RegFile.write_read _ _ _ _ _ _ _ _ _ d.isLt (by omega) hp]
    by_cases hr : r = d.toNat ∧ s.pos + lat ≤ p
    · rw [if_pos hr, if_pos ⟨hd, hr⟩]
    · rw [if_neg hr, if_neg fun h => hr h.2]

end

/-! ### Elements of an image (05 R92) -/

theorem packNat_lt (w : Nat) (f : Nat → Nat) (n : Nat) : packNat w f n < 2 ^ (w * n) := by
  induction n with
  | zero => simp [packNat]
  | succ n ih =>
    have htop : f n % 2 ^ w + 1 ≤ 2 ^ w := Nat.mod_lt _ (Nat.two_pow_pos w)
    calc packNat w f n + f n % 2 ^ w * 2 ^ (w * n)
        < (f n % 2 ^ w + 1) * 2 ^ (w * n) := by rw [Nat.add_one_mul]; omega
      _ ≤ 2 ^ w * 2 ^ (w * n) := Nat.mul_le_mul_right _ htop
      _ = 2 ^ (w * (n + 1)) := by rw [← Nat.pow_add, Nat.mul_succ, Nat.add_comm]

theorem packNat_lt_of_le (w : Nat) (f : Nat → Nat) {n m : Nat} (h : w * n ≤ m) :
    packNat w f n < 2 ^ m :=
  Nat.lt_of_lt_of_le (packNat_lt w f n) (Nat.pow_le_pow_right Nat.two_pos h)

theorem packNat_elem (w : Nat) (f : Nat → Nat) {n k : Nat} (hk : k < n) :
    packNat w f n / 2 ^ (w * k) % 2 ^ w = f k % 2 ^ w := by
  induction n with
  | zero => omega
  | succ n ih =>
    rw [packNat]
    obtain hlt | rfl := Nat.lt_succ_iff_lt_or_eq.mp hk
    · -- the new element stands a whole number of elements above element k
      obtain ⟨j, rfl⟩ := Nat.exists_eq_add_of_lt hlt
      have hsplit : f (k + j + 1) % 2 ^ w * 2 ^ (w * (k + j + 1)) =
          2 ^ (w * k) * (2 ^ w * (f (k + j + 1) % 2 ^ w * 2 ^ (w * j))) := by
        rw [Nat.mul_add_one, Nat.mul_add, Nat.pow_add, Nat.pow_add]
        ac_rfl
      rw [hsplit, Nat.add_mul_div_left _ _ (Nat.two_pow_pos _), Nat.add_mul_mod_self_left, ih hlt]
    · rw [Nat.add_mul_div_right _ _ (Nat.two_pow_pos _), Nat.div_eq_of_lt (packNat_lt w f k),
        Nat.zero_add, Nat.mod_mod]

theorem elem_ofNat {n v w k : Nat} (h : v < 2 ^ n) :
    elem (BitVec.ofNat n v) w k = v / 2 ^ (w * k) % 2 ^ w := by
  rw [elem, BitVec.toNat_ofNat, Nat.mod_eq_of_lt h]

theorem elem_pack (w : Nat) (f : Nat → Nat) {n k : Nat} (hn : w * n ≤ 512) (hk : k < n) :
    elem (pack w n f) w k = f k % 2 ^ w := by
  rw [pack, elem_ofNat (packNat_lt_of_le w f hn), packNat_elem w f hk]

/-- An image whose elements fill the register. -/
theorem elem_pack_lanes (w : Nat) (f : Nat → Nat) {k : Nat} (hk : k < lanes w) :
    elem (pack w (lanes w) f) w k = f k % 2 ^ w :=
  elem_pack w f (Nat.mul_div_le 512 w) hk

theorem lanes_width_pos (t : ElemType) : 0 < lanes t.width := by
  cases t <;> decide

/-- An image of one element, the others 0. -/
theorem pack_first (w v : Nat) {n : Nat} (hn : 0 < n) :
    pack w n (fun k => if k = 0 then v else 0) = BitVec.ofNat 512 (v % 2 ^ w) := by
  have hnat (j : Nat) : packNat w (fun k => if k = 0 then v else 0) (j + 1) = v % 2 ^ w := by
    induction j with
    | zero => simp [packNat]
    | succ j ih => rw [packNat, ih]; simp
  rw [pack, ← Nat.succ_pred_eq_of_pos hn, hnat]

/-! ### Instructions that write a v register (09 R218, R219) -/

section
variable {s : State} {i : Instr} {st : StallCode} {d : VReg} {srcs : List VReg} {ms : List MReg}
  {xs : List XReg} {old : Bool} {lat : Nat}

/-- With its registers ready and unbound, an instruction gives V[d] its image and its flags. -/
theorem givesV_vecInstr {f : State → Vec × FpFlags} (h : s.vectorReady (d :: srcs) ms xs = true)
    (hi : exec i s = .next (vecInstr i st d srcs ms xs old (some lat) f s)) :
    GivesV i s st d (f s).1 lat (f s).2 := by
  have hpops : (if old then d :: srcs else srcs) ⊆ d :: srcs := by
    cases old
    · exact List.subset_cons_self ..
    · exact List.Subset.refl _
  have hdest : [d] ⊆ d :: srcs := by simp
  have hreads : vReads (if old then d :: srcs else srcs) ++ ms.map .m ++ xs.map .x ⊆
      vectorRegs (d :: srcs) ms xs :=
    vectorRegs_subset hpops (List.Subset.refl _) (List.Subset.refl _)
  have hwrites : [RegRef.v d.toNat] ⊆ vectorRegs (d :: srcs) ms xs :=
    vectorRegs_subset (m' := []) (x' := []) hdest (List.nil_subset _) (List.nil_subset _)
  have hunbound {l : List VReg} (hl : l ⊆ d :: srcs) : ∀ r ∈ l, s.tile.bound r.toNat = false :=
    unbound_of_vectorReady h hl
  have hd : (s.orFlags (f s).2).tile.bound d.toNat = false := hunbound hdest d (by simp)
  refine givesV_of_exec (hi.trans (congrArg Host.Outcome.next ?_))
  unfold vecInstr
  dsimp only
  rw [issue_vector h hreads hwrites]
  simp only [queueWait_of_unbound (hunbound hpops) (hunbound hdest),
    popAll_of_unbound (hunbound hpops), usesQueue_of_unbound (hunbound (List.Subset.refl _)),
    finish_of_not_side, State.writeV, hd, Bool.false_eq_true, if_false]

/-- The image has the elements that its function computes. -/
theorem givesElems_vecInstr {t : ElemType} {f : State → Nat → Nat} {op : Nat → Nat}
    (h : s.vectorReady (d :: srcs) ms xs = true)
    (hi : exec i s =
      .next (vecInstr i st d srcs ms xs old (some lat) (fun s => (packElems t (f s), 0)) s))
    (hop : ∀ k, f s k = op k) : GivesElems i s st d t.width lat op := by
  have hv := givesV_vecInstr h hi
  exact ⟨_, hv, fun k hk => by rw [packElems, elem_pack_lanes _ _ hk, hop]⟩

/-- The image has computed elements where the mask enables them, and its old ones elsewhere. -/
theorem givesLanes_vecInstr {m : MReg} {w : Nat} {f : State → Nat → Nat × FpFlags}
    {op : Nat → Nat × FpFlags} (h : s.vectorReady (d :: srcs) ms xs = true)
    (hi : exec i s = .next (vecInstr i st d srcs ms xs old (some lat)
      (fun s => mapLanes w (lanes w) (s.readM m) (f s) (elem (s.readV d) w)) s))
    (hval : ∀ k, (f s k).1 % 2 ^ w = (op k).1 % 2 ^ w) (hfl : ∀ k, (f s k).2 = (op k).2) :
    GivesLanes i s st d m w lat op := by
  have hflags : (mapLanes w (lanes w) (s.readM m) (f s) (elem (s.readV d) w)).2 =
      lanesFlags (s.readM m) w op := by simp only [mapLanes, lanesFlags, hfl]
  have hv := givesV_vecInstr h hi
  refine ⟨_, hflags ▸ hv, fun k hk => ?_⟩
  rw [mapLanes, elem_pack_lanes _ _ hk]
  split
  · exact hval k
  · rfl

end

end Sys2Proof.Machine
end

section
/-! Vector moves, permutations, reductions and the dot product (09 R224 to R228, R233): the values
that their results hold, as the rules state them. -/

namespace Sys2Proof.Machine

/-! ### Compression (R227) -/

/-- The elements that VCOMPRESS packs, by number in the list of the selected ones. -/
theorem compressed_eq (l : List Nat) (f : Nat → Nat) (k : Nat) :
    (match l[k]? with
      | some j => f j
      | none => 0) = if h : k < l.length then f l[k] else 0 := by
  by_cases h : k < l.length
  · rw [dif_pos h, List.getElem?_eq_getElem h]
  · rw [dif_neg h, List.getElem?_eq_none (Nat.not_lt.mp h)]

/-! ### Reductions (R228) -/

/-- What a reduction takes: element 0 of V[b] and the enabled elements of V[a]. -/
def State.reduced (s : State) (a b : VReg) (m : MReg) (t : ElemType) : List Nat :=
  elem (s.readV b) t.width 0 ::
    ((List.range (lanes t.width)).filter fun k => enabled (s.readM m) t.width k).map
      fun k => elem (s.readV a) t.width k

/-- A reduction gives element 0 its value, and 0 to the others. -/
theorem givesV_vecRed {s : State} {i : Instr} {st : StallCode} {d a b : VReg} {m : MReg}
    {t : ElemType} {f : FpMode → List Nat → Nat × FpFlags} {v : Nat} {fl : FpFlags}
    (h : s.vectorReady [d, a, b] [m] [] = true)
    (hi : exec i s = .next (vecRed i st d a b m t f s))
    (hf : f s.tile.fpMode (s.reduced a b m t) = (v, fl)) :
    ∃ r : Vec, GivesV i s st d r 10 fl ∧ r = BitVec.ofNat 512 (v % 2 ^ t.width) := by
  have hv := givesV_vecInstr h hi
  simp only [State.reduced] at hf
  simp only [hf] at hv
  exact ⟨_, hv, pack_first _ _ (lanes_width_pos t)⟩

theorem foldl_max_eq {x v : Int} {l : List Int} (hmem : v ∈ x :: l) (hle : ∀ u ∈ x :: l, u ≤ v) :
    l.foldl max x = v :=
  Option.some.inj (List.max?_cons'.symm.trans (List.max?_eq_some_iff.mpr ⟨hmem, hle⟩))

theorem foldl_min_eq {x v : Int} {l : List Int} (hmem : v ∈ x :: l) (hle : ∀ u ∈ x :: l, v ≤ u) :
    l.foldl min x = v :=
  Option.some.inj (List.min?_cons'.symm.trans (List.min?_eq_some_iff.mpr ⟨hmem, hle⟩))

section
variable {t : ElemType} {f : Nat → Nat → Nat} {l : List Nat} {v : Nat}

theorem extreme_of_isFp {g : Int → Int → Int} (ht : t.isFp = true) :
    extreme t f g l = l.foldl f t.fmt.canonNaN :=
  if_pos ht

/-- VREDMAX of integers is the element that no other exceeds. -/
theorem extreme_max (ht : t.isFp = false) (hmem : v ∈ l) (hle : ∀ u ∈ l, t.toInt u ≤ t.toInt v) :
    extreme t f max l = t.ofInt (t.toInt v) := by
  cases l with
  | nil => cases hmem
  | cons x l =>
    have hmax : (l.map t.toInt).foldl max (t.toInt x) = t.toInt v :=
      foldl_max_eq (List.mem_map_of_mem hmem) (List.forall_mem_map (l := x :: l).mpr hle)
    simp [extreme, ht, hmax]

/-- VREDMIN of integers is the element that exceeds no other. -/
theorem extreme_min (ht : t.isFp = false) (hmem : v ∈ l) (hle : ∀ u ∈ l, t.toInt v ≤ t.toInt u) :
    extreme t f min l = t.ofInt (t.toInt v) := by
  cases l with
  | nil => cases hmem
  | cons x l =>
    have hmin : (l.map t.toInt).foldl min (t.toInt x) = t.toInt v :=
      foldl_min_eq (List.mem_map_of_mem hmem) (List.forall_mem_map (l := x :: l).mpr hle)
    simp [extreme, ht, hmin]

end

/-! ### An element into an x register (R225) -/

theorem givesX_vmvx {s : State} {st : StallCode} {a : VReg} {x y : XReg} {t : ElemType}
    (h : s.vectorReady [a] [] [x, y] = true) :
    GivesX (.vmvx st y a x t) s st y (if (s.readX x).toNat < lanes t.width then
      (if t.isSigned then BitVec.ofInt 64 (t.toInt (elem (s.readV a) t.width (s.readX x).toNat))
        else BitVec.ofNat 64 (elem (s.readV a) t.width (s.readX x).toNat)) else 0) 4 := by
  have hunbound := unbound_of_vectorReady h (List.Subset.refl _)
  refine ⟨_, congrArg Host.Outcome.next ?_, writeX_wrote y _ 4 st (s.pc + 4)⟩
  refine (issue_vector h (by simp [vectorRegs, vReads]) (by simp [vectorRegs, vReads])).trans ?_
  simp only [queueWait_of_unbound hunbound (List.forall_mem_nil _), popAll_of_unbound hunbound,
    usesQueue_of_unbound hunbound, finish_of_not_side, State.advance, writeX_pc]

/-! ### The dot product (R233) -/

/-- The four products of a group. -/
theorem sum_range_four (f : Nat → Int) : ((List.range 4).map f).sum = f 0 + f 1 + f 2 + f 3 := by
  simp [List.range_succ, Int.add_assoc]

/-! ### The statement -/

/-- Settles O19: each move and permutation is one of the two shared forms of a result, and each
reduction takes its value from the same list of elements. -/
theorem vectorMovesPermutationsReductions : Obligations.VectorMovesPermutationsReductions := by
  unfold Obligations.VectorMovesPermutationsReductions
  intro s st d a b m x y t hready
  have hdab : s.vectorReady [d, a, b] [m] [] = true :=
    vectorReady_of_subset hready (List.Subset.refl _) (List.Subset.refl _) (List.nil_subset _)
  have hda : s.vectorReady [d, a] [m] [] = true :=
    vectorReady_of_subset hdab (by simp) (List.Subset.refl _) (List.Subset.refl _)
  have hdax : s.vectorReady [d, a] [m] [x] = true :=
    vectorReady_of_subset hready (by simp) (List.Subset.refl _) (by simp)
  have hdx : s.vectorReady [d] [m] [x] = true :=
    vectorReady_of_subset hdax (by simp) (List.Subset.refl _) (List.Subset.refl _)
  have haxy : s.vectorReady [a] [] [x, y] = true :=
    vectorReady_of_subset hready (by simp) (List.nil_subset _) (List.Subset.refl _)
  refine ⟨?vsel, ?vmv, ?vbcast, ?vslideup, ?vslidedn, ?vperm, ?vcompress, ?vexpand, ?vredsumInt,
    ?vredsumFp, ?vredmaxInt, ?vredminInt, ?vredFp, ?vmvx, ?vdot4⟩
  case vsel => exact givesElems_vecInstr hdab rfl fun k => by split <;> rfl
  case vmv => exact givesLanes_vecInstr hda rfl (fun _ => rfl) fun _ => rfl
  case vbcast => exact givesLanes_vecInstr hdx rfl (fun _ => Nat.mod_mod ..) fun _ => rfl
  case vslideup => exact givesLanes_vecInstr hdax rfl (fun _ => rfl) fun _ => rfl
  case vslidedn => exact givesLanes_vecInstr hdax rfl (fun _ => rfl) fun _ => rfl
  case vperm => exact givesLanes_vecInstr hdab rfl (fun _ => rfl) fun _ => rfl
  case vcompress => exact givesElems_vecInstr hda rfl fun k => compressed_eq ..
  case vexpand => exact givesElems_vecInstr hda rfl fun _ => rfl
  case vredsumInt =>
    intro ht
    exact givesV_vecRed hdab rfl (by rw [List.sum_eq_foldl]; exact if_neg (by simp [ht]))
  case vredsumFp =>
    intro ht
    exact givesV_vecRed hdab rfl (if_pos ht)
  case vredmaxInt =>
    intro ht v hmem hle
    exact givesV_vecRed hdab rfl (congrArg (·, 0) (extreme_max ht hmem hle))
  case vredminInt =>
    intro ht v hmem hle
    exact givesV_vecRed hdab rfl (congrArg (·, 0) (extreme_min ht hmem hle))
  case vredFp =>
    intro ht
    exact ⟨givesV_vecRed hdab rfl (congrArg (·, 0) (extreme_of_isFp ht)),
      givesV_vecRed hdab rfl (congrArg (·, 0) (extreme_of_isFp ht))⟩
  case vmvx => exact fun _ => givesX_vmvx haxy
  case vdot4 =>
    intro _
    refine givesLanes_vecInstr hdab rfl (fun g => ?_) fun _ => rfl
    simp only [sum_range_four, Int.add_assoc, Nat.add_zero]

end Sys2Proof.Machine
end

section
/-! Vector compares and mask operations (09 R223, R234): the mask that a compare writes, its NV
flag, and the values that the mask operations give. -/

namespace Sys2Proof.Machine

/-! ### The mask of a compare (R223) -/

/-- The mask whose bits below `n` are those that `c` chooses, as a compare builds it. -/
def maskBits (n : Nat) (c : Nat → Bool) : Word :=
  (List.range n).foldl (fun r k => if c k then r ||| (1#64 <<< k) else r) 0

theorem getLsbD_maskBits (n : Nat) (c : Nat → Bool) {k : Nat} (hk : k < 64) :
    (maskBits n c).getLsbD k = (decide (k < n) && c k) := by
  induction n with
  | zero => simp [maskBits]
  | succ n ih =>
    have hstep : maskBits (n + 1) c =
        if c n then maskBits n c ||| (1#64 <<< n) else maskBits n c := by
      simp only [maskBits, List.range_succ, List.foldl_append, List.foldl_cons, List.foldl_nil]
    have hbit : (1#64 <<< n).getLsbD k = decide (k = n) := by
      simp only [BitVec.getLsbD_shiftLeft, BitVec.getLsbD_one, hk]
      grind
    rw [hstep]
    by_cases hkn : k = n
    · subst hkn
      cases hc : c k <;> simp [hc, ih, hbit]
    · have hlt : decide (k < n + 1) = decide (k < n) :=
        decide_eq_decide.mpr (by omega)
      cases hc : c n <;> simp only [ih, hbit, hlt, hkn, BitVec.getLsbD_or, decide_false,
        Bool.or_false, if_true, Bool.false_eq_true, if_false]

section
variable {s : State} {i : Instr} {st : StallCode} {d m : MReg} {a b : VReg} {t : ElemType}

/-- A compare of elements `k` of V[a] and V[b]: by `fp` for class FP, and by `int` otherwise. -/
def State.compared (s : State) (a b : VReg) (t : ElemType) (int : Int → Int → Bool)
    (fp : FVal → FVal → Bool) (k : Nat) : Bool :=
  let x := elem (s.readV a) t.width k
  let y := elem (s.readV b) t.width k
  if t.isFp then fp (t.fmt.value x) (t.fmt.value y) else int (t.toInt x) (t.toInt y)

/-- A compare meets a NaN in an enabled pair of elements. -/
def State.meetsNaN (s : State) (a b : VReg) (m : MReg) (t : ElemType) : Prop :=
  ∃ k < lanes t.width, enabled (s.readM m) t.width k = true ∧
    ((t.fmt.value (elem (s.readV a) t.width k)).isNaN ||
      (t.fmt.value (elem (s.readV b) t.width k)).isNaN) = true

/-- A compare gives M[d] the outcomes `c` of the enabled elements and its old bits elsewhere, with
NV where it is ordered and meets a NaN. -/
theorem givesM_vecCmp {nv : Bool} {int : Int → Int → Bool} {fp : FVal → FVal → Bool}
    {c : Nat → Bool} {p : Prop} [Decidable p] (h : s.vectorReady [a, b] [d, m] [] = true)
    (hi : exec i s = .next (vecCmp i st d a b m t nv int fp s))
    (hp : nv = true ∧ t.isFp = true ∧ s.meetsNaN a b m t ↔ p)
    (hc : ∀ k, s.compared a b t int fp k = c k) :
    ∃ v : Word, GivesM i s st d v 4 (if p then flagNV else 0) ∧
      ∀ k < 64, v.getLsbD k = (decide (k < lanes t.width) &&
        if enabled (s.readM m) t.width k then c k else (s.readM d).getLsbD k) := by
  obtain rfl : s.compared a b t int fp = c := funext hc
  refine ⟨_, ?_, fun k hk => getLsbD_maskBits _ _ hk⟩
  have hunbound := unbound_of_vectorReady h (List.Subset.refl _)
  have hreads : vReads [a, b] ++ [.m m] ++ (if s.full m t then [] else [.m d]) ⊆
      vectorRegs [a, b] [d, m] [] := by
    cases s.full m t <;> simp [vectorRegs, vReads]
  have hflag : (nv && t.isFp && (List.range (lanes t.width)).any fun k =>
        enabled (s.readM m) t.width k && ((t.fmt.value (elem (s.readV a) t.width k)).isNaN ||
          (t.fmt.value (elem (s.readV b) t.width k)).isNaN)) = true ↔ p := by
    simp only [← hp, State.meetsNaN, Bool.and_eq_true, List.any_eq_true, List.mem_range, and_assoc]
  refine givesM_of_exec (hi.trans (congrArg Host.Outcome.next ?_))
  unfold vecCmp
  dsimp only
  rw [issue_vector h hreads (by simp [vectorRegs])]
  simp only [queueWait_of_unbound hunbound (List.forall_mem_nil _), popAll_of_unbound hunbound,
    usesQueue_of_unbound hunbound, finish_of_not_side, hflag]
  rfl

end

/-! ### Mask operations (R234) -/

section
variable {s : State} {i : Instr} {st : StallCode} {ms : List MReg} {xs : List XReg} {v : Word}

theorem givesM_maskOp {d : MReg} {f : State → Word} (h : s.vectorReady [] (d :: ms) xs = true)
    (hi : exec i s = .next (maskOp i st d ms xs f s)) (hv : f s = v) :
    GivesM i s st d v 4 0 := by
  subst hv
  have hreads : ms.map .m ++ xs.map .x ⊆ vectorRegs [] (d :: ms) xs :=
    vectorRegs_subset (v' := []) (List.Subset.refl _) (List.subset_cons_self ..)
      (List.Subset.refl _)
  refine givesM_of_exec (hi.trans (congrArg Host.Outcome.next ?_))
  unfold maskOp
  rw [issue_vector h hreads (by simp [vectorRegs]), orFlags_zero, finish_of_not_side rfl rfl]

theorem givesX_maskToX {d : XReg} {a : MReg} {f : Word → Word}
    (h : s.vectorReady [] [a] [d] = true) (hi : exec i s = .next (maskToX i st d a f s))
    (hv : f (s.readM a) = v) : GivesX i s st d v 4 := by
  subst hv
  refine ⟨_, hi, ?_⟩
  unfold maskToX
  rw [issue_vector h (by simp [vectorRegs]) (by simp [vectorRegs]), finish_of_not_side rfl rfl,
    State.advance, writeX_pc]
  exact writeX_wrote ..

end

/-! ### The statement -/

/-- Settles O20: the compares differ in what they ask of two elements and in whether a NaN is
invalid, the mask operations in the value that they compute. -/
theorem comparesAndMaskOperations : Obligations.ComparesAndMaskOperations := by
  unfold Obligations.ComparesAndMaskOperations
  intro s st d p q m a b x t _ hready
  have hcompare : s.vectorReady [a, b] [d, m] [] = true :=
    vectorReady_of_subset hready (List.Subset.refl _) (by simp) (List.nil_subset _)
  have hdpq : s.vectorReady [] [d, p, q] [] = true :=
    vectorReady_of_subset hready (List.nil_subset _) (by simp) (List.nil_subset _)
  have hdp : s.vectorReady [] [d, p] [] = true :=
    vectorReady_of_subset hdpq (List.Subset.refl _) (by simp) (List.Subset.refl _)
  have hdx : s.vectorReady [] [d] [x] = true :=
    vectorReady_of_subset hready (List.nil_subset _) (by simp) (List.Subset.refl _)
  have hpx : s.vectorReady [] [p] [x] = true :=
    vectorReady_of_subset hready (List.nil_subset _) (by simp) (List.Subset.refl _)
  refine ⟨fun _ => ⟨?vcmpeq, ?vcmplt, ?vcmple⟩, ?mand, ?mor, ?mxor, ?mnot, ?mset, ?mget, ?mcnt,
    ?mfirst⟩
  case vcmpeq =>
    exact givesM_vecCmp hcompare rfl Iff.rfl fun k => by simp only [State.compared, Bool.not_or]
  case vcmplt => exact givesM_vecCmp hcompare rfl Iff.rfl fun _ => rfl
  case vcmple =>
    exact givesM_vecCmp hcompare rfl Iff.rfl fun k => by simp only [State.compared, Bool.not_or]
  case mand => exact givesM_maskOp hdpq rfl rfl
  case mor => exact givesM_maskOp hdpq rfl rfl
  case mxor => exact givesM_maskOp hdpq rfl rfl
  case mnot => exact givesM_maskOp hdp rfl rfl
  case mset => exact givesM_maskOp hdx rfl rfl
  case mget => exact givesX_maskToX hpx rfl rfl
  case mcnt => exact givesX_maskToX hpx rfl (opCpop_eq _)
  case mfirst => exact fun k hk hzero hone => givesX_maskToX hpx rfl (opCtz_eq hk hzero hone)

end Sys2Proof.Machine
end

section
/-! Receives and channels (14 R346, R349, R352, R353, R356, 07 R157): what a receive does with its
channel, open or closed, empty or not, and how channels open and close. -/

namespace Sys2Proof.Machine

/-! ### Issue on the execute hart -/

/-- An instruction of the execute hart that only reads and writes registers runs when they are
ready. -/
theorem issue_eh {s : State} {w : Word32} {st : StallCode} {side : Bool} {rs ws : List RegRef}
    {body : State → State} (hwho : s.who = .eh) (h : s.ready rs ws = true) :
    s.issue { word := w, stall := st, side := side, reads := rs, writes := ws } body = body s :=
  issue_runs (by rw [hwho]; rfl) rfl rfl h rfl (Nat.not_lt_zero _) rfl

/-! ### Channels and their faults (R349, R356) -/

theorem chanOf_eq (s : State) (a : XReg) : s.chanOf a = (s.readX a).toNat % 8 := by
  rw [State.chanOf, slice_zero_eq_setWidth _ (by decide), BitVec.toNat_setWidth]

theorem chanOf_lt (s : State) (a : XReg) : s.chanOf a < 8 := (slice (s.readX a) 0 3).isLt

theorem toNat_append_eq_add {m n : Nat} (x : BitVec m) (y : BitVec n) :
    (x ++ y).toNat = x.toNat * 2 ^ n + y.toNat := by
  rw [BitVec.toNat_append, ← Nat.shiftLeft_add_eq_or_of_lt y.isLt, Nat.shiftLeft_eq]

/-- R356: TVAL of a CHANFAULT at issue, by its fields. -/
theorem chanTval_false {code ch : Nat} (hcode : code < 128) (hch : ch < 8) (w : Word32) :
    chanTval false code ch w = BitVec.ofNat 64 (code * 2 ^ 56 + ch * 2 ^ 32 + w.toNat) := by
  have hw := w.isLt
  apply BitVec.eq_of_toNat_eq
  refine (toNat_append_eq_add (0#1 ++ BitVec.ofNat 7 code ++ 0#21 ++ BitVec.ofNat 3 ch) w).trans ?_
  simp only [toNat_append_eq_add, BitVec.toNat_ofNat]
  omega

/-! ### Receives (R346, R352) -/

/-- R157: what remains of a channel whose oldest message has been taken. -/
theorem popMsg_of_cons {s : State} {ch : Nat} {m : Msg} {rest : List Msg}
    (h : (s.channel ch).entries = m :: rest) :
    s.popMsg ch = (s.setChannel ch { s.channel ch with entries := rest }).acquire := by
  rw [State.popMsg, h, List.drop_one, List.tail_cons]

/-- The part that RECV, RECVV and RECVTRY share: a closed channel faults, an empty one answers
`empty`, and otherwise the oldest message is taken. -/
def State.receive (s : State) (ch : Nat) (w : Word32) (empty : State) (take : Msg → State) :
    State :=
  if !(s.channel ch).isOpen then s.raise ⟨.chanfault, chanTval false 1 ch w, none⟩
  else match (s.channel ch).entries with
    | [] => empty
    | m :: _ => take m

section
variable {s : State} {ch : Nat} {w : Word32} {empty : State} {take : Msg → State}

theorem receive_of_cons {m : Msg} {rest : List Msg} (ho : (s.channel ch).isOpen = true)
    (hm : (s.channel ch).entries = m :: rest) : s.receive ch w empty take = take m := by
  simp [State.receive, ho, hm]

theorem receive_of_empty (ho : (s.channel ch).isOpen = true)
    (hm : (s.channel ch).entries = []) : s.receive ch w empty take = empty := by
  simp [State.receive, ho, hm]

theorem receive_of_closed (hch : ch < 8) (hc : (s.channel ch).isOpen = false) :
    s.receive ch w empty take =
      s.raise ⟨.chanfault, BitVec.ofNat 64 (2 ^ 56 + ch * 2 ^ 32 + w.toNat), none⟩ := by
  simp [State.receive, hc, chanTval_false (code := 1) (by decide) hch]

end

section
variable {s : State} {st : StallCode} {d a : XReg} {v : VReg}

theorem exec_recv (hwho : s.who = .eh) (hr : s.ready [.x a] (recvWrites d) = true) :
    exec (.recv st d a) s = .next (s.receive (s.chanOf a) (encode (.recv st d a)) (s.stay 0)
      fun m => (((s.popMsg (s.chanOf a)).landMsg d m).noteSide true).advance st) :=
  congrArg Host.Outcome.next ((issue_eh hwho hr).trans (by simp only [finish_of_side]; rfl))

theorem exec_recvtry (hwho : s.who = .eh) (hr : s.ready [.x a] (recvWrites d) = true) :
    exec (.recvtry st d a) s = .next (s.receive (s.chanOf a) (encode (.recvtry st d a))
      (((s.commitX d 0).noteSide true).advance st)
      fun m => (((s.popMsg (s.chanOf a)).landMsg d m).noteSide true).advance st) :=
  congrArg Host.Outcome.next ((issue_eh hwho hr).trans (by simp only [finish_of_side]; rfl))

/-- A v register that no queue is bound to takes the data; a replay under way does not see them
(04 R77). -/
theorem commitVR_of_unbound (hwho : s.who = .eh) (hb : s.tile.bound v.toNat = false) (x : Vec) :
    s.commitVR v x = s.onTile fun t => t.commitV false v.toNat x := by
  rw [State.commitVR, hb, hwho]
  rfl

theorem exec_recvv (hwho : s.who = .eh) (hr : s.ready [.x a] [.v v.toNat] = true)
    (hb : s.tile.bound v.toNat = false) :
    exec (.recvv st v a) s = .next (s.receive (s.chanOf a) (encode (.recvv st v a)) (s.stay 0)
      fun m => (((s.popMsg (s.chanOf a)).onTile fun t =>
        t.commitV false v.toNat m.data).noteSide true).advance st) := by
  have hland (m : Msg) := commitVR_of_unbound (s := s.popMsg (s.chanOf a)) hwho hb m.data
  have hwait : s.queueWait [] [v] = none := queueWait_of_unbound (by simp) (by simpa using hb)
  refine congrArg Host.Outcome.next ((issue_eh hwho hr).trans ?_)
  simp only [hwait, hland, finish_of_side]
  rfl

/-! ### Opening and closing (R353) -/

theorem exec_chopen (hwho : s.who = .eh) (hr : s.ready [.x a] [] = true) :
    exec (.chopen st a) s = .next ((s.setChannel (s.chanOf a)
      { s.channel (s.chanOf a) with isOpen := true }).advance st) :=
  congrArg Host.Outcome.next ((issue_eh hwho hr).trans (finish_of_not_side rfl rfl))

/-- A request under way on the channel holds CHCLOSE up. -/
theorem exec_chclose (hwho : s.who = .eh) (hr : s.ready [.x a] [.x d] = true) :
    exec (.chclose st d a) s = .next (if ∃ r ∈ s.tile.remote, r.chan = s.chanOf a then s.stay 0
      else ((s.setChannel (s.chanOf a) { s.channel (s.chanOf a) with
        isOpen := false, entries := [] }).commitX d
          (BitVec.ofNat 64 (s.channel (s.chanOf a)).entries.length)).advance st) := by
  refine congrArg Host.Outcome.next ((issue_eh hwho hr).trans ?_)
  simp only [List.any_eq_true, beq_iff_eq, finish_of_not_side]

end

/-! ### The statement -/

/-- Settles O38: the receives differ in where the message goes and in what an empty channel
answers. That a receive drops the lines that the tile does not own even where the sender is on the
same tile is the model's choice (log 32). -/
theorem receivesTakeTheOldestMessage : Obligations.ReceivesTakeTheOldestMessage := by
  unfold Obligations.ReceivesTakeTheOldestMessage
  intro s st d a v hwho hready hb
  have hregs : s.ready [.x a] (recvWrites d) = true := by
    refine ready_of_subset hready (List.Subset.refl _) ?_
    unfold recvWrites
    split <;> simp [blockReads, block4]
  have hvec : s.ready [.x a] [.v v.toNat] = true :=
    ready_of_subset hready (List.Subset.refl _) (by simp)
  have hdst : s.ready [.x a] [.x d] = true :=
    ready_of_subset hready (List.Subset.refl _) (by simp)
  have hsrc : s.ready [.x a] [] = true :=
    ready_of_subset hready (List.Subset.refl _) (List.nil_subset _)
  rw [← chanOf_eq]
  refine ⟨fun hopen => ⟨fun m rest hm => ?message, fun hm => ?empty⟩, fun hclosed => ?closed,
    exec_chopen hwho hsrc, fun hnone => ?closes, fun hsome => ?waits⟩
  case message =>
    simp only [exec_recv hwho hregs, exec_recvtry hwho hregs, exec_recvv hwho hvec hb,
      receive_of_cons hopen hm, popMsg_of_cons hm, and_true]
    exact ⟨rfl, rfl⟩
  case empty =>
    simp only [exec_recv hwho hregs, exec_recvtry hwho hregs, exec_recvv hwho hvec hb,
      receive_of_empty hopen hm, and_self]
  case closed =>
    simp only [exec_recv hwho hregs, exec_recvtry hwho hregs, exec_recvv hwho hvec hb,
      receive_of_closed (chanOf_lt s a) hclosed, and_self]
  case closes =>
    rw [exec_chclose hwho hdst, if_neg fun ⟨r, hr, hchan⟩ => hnone r hr hchan]
  case waits =>
    rw [exec_chclose hwho hdst, if_pos hsome]

end Sys2Proof.Machine
end

section
/-! Returns, waits, pauses and halts (16 R406, R407, R410, 04 R80): the STATUS that a return leaves,
the replay that it resumes, and where WFI, PAUSE and HALT leave their unit. -/

namespace Sys2Proof

/-! ### Fields of a word -/

theorem getLsbD_setSlice {m n lo k : Nat} (w : BitVec m) (v : BitVec n) (hk : k < m) :
    (setSlice w lo n v).getLsbD k =
      if lo ≤ k ∧ k < lo + n then v.getLsbD (k - lo) else w.getLsbD k := by
  simp only [setSlice, BitVec.getLsbD_or, BitVec.getLsbD_and, BitVec.getLsbD_not,
    BitVec.shiftLeft_eq, BitVec.getLsbD_shiftLeft, BitVec.getLsbD_setWidth, BitVec.getLsbD_allOnes]
  by_cases hlo : lo ≤ k
  · have hm : k - lo < m := by omega
    by_cases hn : k < lo + n
    · simp [hk, hlo, hm, hn, Nat.not_lt.mpr hlo, show k - lo < n by omega]
    · simp [hk, hlo, hn, BitVec.getLsbD_of_ge v (k - lo) (by omega), show ¬ k - lo < n by omega]
  · simp [hk, hlo, Nat.not_le.mp hlo]

/-- Clearing the top bit of a register masks it out. -/
theorem setSlice_top_zero (w : Word) : setSlice w 63 1 0#1 = w &&& 0x7FFFFFFFFFFFFFFF#64 := by
  simp [setSlice]

/-! ### The number of words of a window, as FRAME holds it (04 R74, 02 R38) -/

section
variable {w : Word32} {e t : BitVec 3} {n : BitVec 4} {c : BitVec 8} {x y z : BitVec 1}

/-- No word of a grouped major is a FRAME. -/
theorem decodeFunct_ne_frame : ∀ f ∈ [decodeIntr, decodeShifti, decodeQctl, decodeCache,
    decodeFenceop, decodeAmo, decodeEtctl, decodeMop, decodeVcvtw, decodeVfmt, decodeMctl,
    decodeEng, decodeBurin, decodeBsp, decodeMsg, decodeWork, decodeSys],
    f w ≠ .ok (.frame e n c t x y z) := by
  simp only [List.forall_mem_cons, List.not_mem_nil, false_implies, implies_true, and_true]
  refine ⟨?_, ?_, ?_, ?_, ?_, ?_, ?_, ?_, ?_, ?_, ?_, ?_, ?_, ?_, ?_, ?_, ?_⟩
  all_goals
    simp only [decodeIntr, decodeShifti, decodeQctl, decodeCache, decodeFenceop, decodeAmo,
      decodeEtctl, decodeMop, decodeVcvtw, decodeVfmt, decodeMctl, decodeEng, decodeBurin,
      decodeBsp, decodeMsg, decodeWork, decodeSys]
    repeat' split
    all_goals nofun

/-- No word of a major outside 0x10 to 0x1F is a FRAME. -/
theorem decodeMajors_ne_frame : ∀ f ∈ [decodeMajors0, decodeMajors2, decodeMajors3, decodeMajors4,
    decodeMajors5, decodeMajors6, decodeMajors7], f w ≠ .ok (.frame e n c t x y z) := by
  have hfunct := decodeFunct_ne_frame (w := w) (e := e) (n := n) (c := c) (t := t) (x := x) (y := y)
    (z := z)
  simp only [List.forall_mem_cons, List.not_mem_nil, false_implies, implies_true, and_true]
    at hfunct ⊢
  refine ⟨?_, ?_, ?_, ?_, ?_, ?_, ?_⟩
  all_goals
    simp only [decodeMajors0, decodeMajors2, decodeMajors3, decodeMajors4, decodeMajors5,
      decodeMajors6, decodeMajors7]
    repeat' split
    all_goals simp only [hfunct, ne_eq, reduceCtorEq, Except.ok.injEq, not_false_eq_true]

theorem size_of_decodeMajors1 (h : decodeMajors1 w = .ok (.frame e n c t x y z)) :
    n = slice w 18 4 := by
  have hqctl : decodeQctl w ≠ .ok (.frame e n c t x y z) := decodeFunct_ne_frame _ (by simp)
  unfold decodeMajors1 at h
  repeat' split at h
  case h_9.isTrue =>
    cases h
    rfl
  case h_15 => exact absurd h hqctl
  all_goals cases h

/-- N of a FRAME is bits [21:18] of its word. -/
theorem size_of_decodeWord (h : decodeWord w = .ok (.frame e n c t x y z)) : n = slice w 18 4 := by
  have hfields : decodeFields w = .ok (.frame e n c t x y z) := by
    unfold decodeWord at h
    repeat' split at h
    case h_2.isTrue i hi _ => rw [hi, Except.ok.inj h]
    all_goals cases h
  unfold decodeFields at hfields
  repeat' split at hfields
  case h_1.isTrue => cases hfields
  case h_2 => exact size_of_decodeMajors1 hfields
  all_goals exact absurd hfields (decodeMajors_ne_frame _ (by simp))

end

end Sys2Proof

namespace Sys2Proof.Machine

/-! ### What settling, completing and going on leave (02 R44, R49) -/

@[simp] theorem settle_who (s : State) : s.settle.who = s.who := by rw [settle_frame]

@[simp] theorem settle_cr (s : State) : s.settle.tile.cr = s.tile.cr := by
  cases hwho : s.who <;> simp [State.settle, State.setCore, Tile.setCore, hwho]

@[simp] theorem settle_level (s : State) : s.settle.tile.level = s.tile.level := by
  rw [Tile.level, settle_cr, Tile.level]

@[simp] theorem goTo_who (s : State) (pc : Word) (k : Nat) : (s.goTo pc k).who = s.who := by
  rw [goTo_frame]

theorem Tile.advanceFrame_cr (t : Tile) (k : Nat) : (t.advanceFrame k).cr = t.cr := by
  unfold Tile.advanceFrame
  split
  · rfl
  · dsimp only
    repeat' split
    all_goals rfl

@[simp] theorem goTo_cr (s : State) (pc : Word) (k : Nat) :
    (s.goTo pc k).tile.cr = s.tile.cr := by
  cases hwho : s.who <;>
    simp [State.goTo, State.setCore, Tile.setCore, Tile.advanceFrame_cr, hwho]

/-- A serializing instruction that is no side effect completes with P risen by 1. -/
theorem finish_of_serial {s : State} {i : Issue} (hside : i.side = false)
    (hserial : i.serial = true) : s.finish i = s.goTo (s.pc + 4) 0 := by
  simp [State.finish, State.finishAt, hside, hserial]

/-! ### Fetches where no error is left to find (16 R426) -/

section
variable {s : State} {a : Word}

theorem detect_of_no_injected (h : s.injected = []) (k : Nat) : s.detect k = s := by
  simp [State.detect, h]

theorem detectRead_of_no_injected (h : s.injected = []) (la : Nat) : s.detectRead la = s :=
  foldl_keeps (· = s) State.detect (fun _ k hs => by rw [hs, detect_of_no_injected h]) _ s rfl

/-- A fetch that answers its word has found no lost sector. -/
theorem detectFetch_of_fetchWord {w : Word32} (h : s.injected = []) (hw : s.fetchWord a = .ok w) :
    s.detectFetch a = s := by
  unfold State.detectFetch
  split
  · rfl
  next x hx =>
    split
    next hread =>
      simp only [Bool.and_eq_true, Bool.not_eq_true', List.any_eq_false] at hread
      obtain ⟨⟨hlocal, hfree⟩, hfetched⟩ := hread
      have hkept : s.tile.fetched.find? (fun p => p.1 == x.pa) = none :=
        List.find?_eq_none.mpr hfetched
      have hsound : s.lostRead (s.redirect s.cur (localAddr x.pa)) = none := by
        cases hlost : s.lostRead (s.redirect s.cur (localAddr x.pa)) with
        | none => rfl
        | some sector => simp [State.fetchWord, hx, hkept, hlocal, hfree, hlost] at hw
      simp only [detectRead_of_no_injected h, hsound]
    · rfl

/-- A window that is fetched has each of its words. -/
theorem fetchWord_of_fetchWindow {n : Nat} : ∀ {a : Word} {ws : List Word32},
    s.fetchWindow a n = .ok ws →
      ∀ k < n, ∃ w, s.fetchWord (a + BitVec.ofNat 64 (4 * k)) = .ok w := by
  induction n with
  | zero => exact fun _ k hk => absurd hk (Nat.not_lt_zero k)
  | succ n ih =>
    intro a ws h k hk
    unfold State.fetchWindow at h
    split at h
    · cases h
    next w hw =>
      split at h
      · cases h
      next rest hrest =>
        cases k with
        | zero => exact ⟨w, by simpa using hw⟩
        | succ k =>
          obtain ⟨w', hw'⟩ := ih hrest k (by omega)
          refine ⟨w', ?_⟩
          rw [← hw']
          congr 1
          bv_omega

theorem detectWindow_of_fetchWindow {n : Nat} {ws : List Word32} (h : s.injected = [])
    (hws : s.fetchWindow a n = .ok ws) : s.detectWindow a n = s := by
  refine List.foldlRecOn (motive := (· = s)) _ _ rfl fun u hu k hk => ?_
  obtain ⟨w, hw⟩ := fetchWord_of_fetchWindow hws k (List.mem_range.mp hk)
  subst hu
  exact detectFetch_of_fetchWord h hw

theorem fetchWindow_of_captureWindow {w : Word32} {ws : List Word32}
    (h : s.captureWindow a w = .ok ws) :
    s.fetchWindow (a + 4) ((slice w 18 4).toNat + 1) = .ok ws := by
  unfold State.captureWindow at h
  repeat' split at h
  case h_2 ws' hws' _ _ => rw [hws', Except.ok.inj h]
  all_goals cases h

end

/-! ### Replays resumed (04 R80) -/

theorem resumeFrame_of_inactive {s : State} (h : s.tile.cr.framepos.getLsbD 63 = false) :
    s.resumeFrame = s :=
  if_pos (by rw [bitAt, h]; rfl)

/-- The address in FRAMEPOS is that of a word (04 R78). -/
theorem framepos_addr (fp : Word) :
    (0#16 ++ slice fp 2 46 ++ 0#2 : Word) = BitVec.ofNat 64 (fp.toNat % 2 ^ 48 / 4 * 4) := by
  apply BitVec.eq_of_toNat_eq
  simp only [toNat_append_eq_add, BitVec.extractLsb'_toNat, BitVec.toNat_ofNat,
    Nat.shiftRight_eq_div_pow]
  omega

section
variable {s u : State} {fp : Nat} {a : Word} {w : Word32} {ws : List Word32} {e t : BitVec 3}
  {n : BitVec 4} {c : BitVec 8} {x y z : BitVec 1}

/-- A window that is captured again is replayed from the place that FRAMEPOS records. The state `u`
in which its words are fetched walks at once. -/
theorem resumeFrame_of_captured
    (hactive : s.tile.cr.framepos.getLsbD 63 = true) (hinj : s.injected = [])
    (hfp : s.tile.cr.framepos.toNat = fp) (ha : BitVec.ofNat 64 (fp % 2 ^ 48 / 4 * 4) = a)
    (hu : { s with choice := { s.choice with walks := false } } = u)
    (hword : u.fetchWord a = .ok w) (hframe : decodeWord w = .ok (.frame e n c t x y z))
    (hwindow : u.captureWindow a w = .ok ws) (hpos : fp / 2 ^ 48 % 16 < ws.length)
    (hiter : fp / 2 ^ 52 % 256 ≤ w.toNat / 2 ^ 10 % 256) :
    s.resumeFrame = s.onTile fun t => { t with
      cr := { t.cr with framepos := t.cr.framepos &&& 0x7FFFFFFFFFFFFFFF#64 }
      frame := some ⟨a, w, ws, fp / 2 ^ 52 % 256, fp / 2 ^ 48 % 16, t.eh.pos, s.fresh⟩ } := by
  have hinj' : u.injected = [] := hu ▸ hinj
  have hfetch : u.detectFetch a = u := detectFetch_of_fetchWord hinj' hword
  have hfetches : u.detectWindow (a + 4) (n.toNat + 1) = u := by
    rw [size_of_decodeWord hframe]
    exact detectWindow_of_fetchWindow hinj' (fetchWindow_of_captureWindow hwindow)
  have haddr : (0#16 ++ slice s.tile.cr.framepos 2 46 ++ 0#2 : Word) = a := by
    rw [framepos_addr, hfp, ha]
  have hplace : (slice s.tile.cr.framepos 48 4).toNat = fp / 2 ^ 48 % 16 := by
    rw [BitVec.extractLsb'_toNat, Nat.shiftRight_eq_div_pow, hfp]
  have hround : (slice s.tile.cr.framepos 52 8).toNat = fp / 2 ^ 52 % 256 := by
    rw [BitVec.extractLsb'_toNat, Nat.shiftRight_eq_div_pow, hfp]
  have hcount : (slice w 10 8).toNat = w.toNat / 2 ^ 10 % 256 := by
    rw [BitVec.extractLsb'_toNat, Nat.shiftRight_eq_div_pow]
  simp only [State.resumeFrame, hactive, haddr, hu, hfetch, hword, hframe, hfetches, hwindow,
    hplace, hround, hcount, if_pos (And.intro hpos hiter), setSlice_top_zero]
  subst hu
  rfl

end

/-! ### ERET (16 R406) -/

/-- STATUS after a return to the level whose enable stands at `ie`, from bits `pie` and `pl`. -/
def returnStatus (st : Word) (ie pie pl : Nat) : Word :=
  setSlice (setSlice (setSlice st ie 1 (slice st pie 1)) pie 1 0#1) 2 2 (slice st pl 2)

theorem getLsbD_returnStatus (st : Word) {ie pie pl k : Nat} (hie : ie < 2) (hpie : 4 ≤ pie)
    (hk : k < 64) : (returnStatus st ie pie pl).getLsbD k =
      if k = ie then st.getLsbD pie else if k = pie then false
        else if k = 2 then st.getLsbD pl else if k = 3 then st.getLsbD (pl + 1)
        else st.getLsbD k := by
  simp only [returnStatus, getLsbD_setSlice _ _ hk, BitVec.getLsbD_extractLsb']
  have hlevel : 2 ≤ k ∧ k < 2 + 2 ↔ k = 2 ∨ k = 3 := by omega
  have hsaved : pie ≤ k ∧ k < pie + 1 ↔ k = pie := by omega
  have henable : ie ≤ k ∧ k < ie + 1 ↔ k = ie := by omega
  simp only [hlevel, hsaved, henable]
  obtain rfl | h₂ := Decidable.em (k = 2)
  · simp [show 2 ≠ ie by omega, show 2 ≠ pie by omega]
  obtain rfl | h₃ := Decidable.em (k = 3)
  · simp [show 3 ≠ ie by omega, show 3 ≠ pie by omega]
  obtain rfl | hp := Decidable.em (k = pie)
  · simp [h₂, h₃, show k ≠ ie by omega]
  obtain rfl | he := Decidable.em (k = ie)
  · simp [h₂, h₃, hp]
  · simp [h₂, h₃, hp, he]

/-- The state after a return to `pc` with STATUS `v` for which `k` fresh numbers were drawn. -/
def State.returned (s : State) (v pc : Word) (k : Nat) : State :=
  ({ s.settle.onTile (fun t => { t with cr := { t.cr with status := v } }) with
    fresh := s.settle.fresh + k }).goTo pc 0

section
variable {s : State} {v pc : Word} {k : Nat}

theorem returned_cr : (s.returned v pc k).tile.cr = { s.tile.cr with status := v } := by
  simp [State.returned]

theorem returned_frame : s.returned v pc k =
    { s with fresh := s.settle.fresh + k, tile := (s.returned v pc k).tile } := by
  unfold State.returned
  rw [goTo_frame, settle_frame]
  rfl

theorem returned_choice : (s.returned v pc k).choice = s.choice := by rw [returned_frame]

theorem returned_injected : (s.returned v pc k).injected = s.injected := by rw [returned_frame]

theorem returned_fresh : (s.returned v pc k).fresh = s.settle.fresh + k := by rw [returned_frame]

/-- SYS and FIRM return without waiting for scoreboarded writes: a replay alone holds them up. -/
theorem exec_eret (hwho : s.who = .eh) (hf : s.tile.frame = none) (hl : 1 ≤ s.tile.level) :
    exec .eret s =
      .next ((s.settle.leaveTrap.1.goTo s.settle.leaveTrap.2 0).resumeFrame) := by
  refine congrArg Host.Outcome.next ((issue_runs (by rw [hwho]; rfl) rfl (by simp [hf])
    (by simp [State.ready]) rfl (Nat.not_lt.mpr hl) rfl).trans ?_)
  simp only [finishAt_of_not_side]
  rfl

theorem exec_eret_of_sys (hwho : s.who = .eh) (hf : s.tile.frame = none) (hl : s.tile.level = 1) :
    exec .eret s = .next
      (s.returned (returnStatus s.tile.cr.status 0 8 4) s.tile.cr.sepc 0).resumeFrame := by
  rw [exec_eret hwho hf (Nat.le_of_eq hl.symm), State.leaveTrap, if_neg (by rw [settle_level, hl]; decide),
    settle_cr]
  rfl

theorem exec_eret_of_firm (hwho : s.who = .eh) (hf : s.tile.frame = none) (hl : s.tile.level = 2)
    (hp : s.tile.cr.status.toNat / 64 % 4 ≠ 3) :
    exec .eret s = .next
      (s.returned (returnStatus s.tile.cr.status 1 9 6) s.tile.cr.fepc 1).resumeFrame := by
  have hreturn : s.settle.returnLevel = slice s.tile.cr.status 6 2 := by
    rw [State.returnLevel, settle_cr]
    refine if_neg fun h => hp ?_
    simpa [Nat.shiftRight_eq_div_pow] using congrArg BitVec.toNat h
  rw [exec_eret hwho hf (by omega), State.leaveTrap, if_pos (by rw [settle_level, hl]),
    hreturn, settle_cr]
  rfl

/-- An instruction that reads and writes no register is refused at too low a level (02 R40). -/
theorem issue_of_low_level {i : Issue} {body : State → State} (hu : i.units.has s.who = true)
    (hs : i.serial = false) (hf : s.tile.frame = none) (hr : i.reads = []) (hw : i.writes = [])
    (hi : i.illegal s = false) (hl : s.tile.level < i.level) :
    s.issue i body = s.privTrap i.word := by
  simp [State.issue, State.mustWait, hu, hs, hf, hr, hw, hi, hl]

/-- TVAL of PRIV on the execute hart is the word (02 R40). -/
theorem wordTval_of_eh (hwho : s.who = .eh) (w : Word32) : s.wordTval w = w.setWidth 64 := by
  rw [State.wordTval, hwho]
  apply BitVec.eq_of_toNat_eq
  simp only [toNat_append_eq_add, BitVec.toNat_setWidth, BitVec.toNat_ofNat, UnitId.source]
  omega

theorem exec_eret_of_app (hwho : s.who = .eh) (hf : s.tile.frame = none) (hl : s.tile.level = 0) :
    exec .eret s = .next (s.raise ⟨.priv, (s.withStall (encode .eret)).setWidth 64, none⟩) := by
  refine congrArg Host.Outcome.next ((issue_of_low_level (by rw [hwho]; rfl) rfl hf rfl rfl rfl
    (by rw [hl]; exact Nat.one_pos)).trans ?_)
  rw [State.privTrap, wordTval_of_eh hwho]

end

/-! ### WFI, PAUSE and HALT (16 R407, R410) -/

section
variable {s : State}

/-- A serializing instruction without registers runs once nothing is left to drain. -/
theorem issue_drained {w : Word32} {units : Units} {level : Nat} {priv : State → Bool}
    {body : State → State} (hu : units.has s.who = true) (hd : s.drained = true)
    (hl : level ≤ s.tile.level) (hp : priv s.settle = false) :
    s.issue { word := w, units := units, level := level, serial := true, priv := priv } body =
      body s.settle :=
  issue_serial hu rfl hd rfl (by simp [State.ready]) rfl
    (by rw [settle_level]; exact Nat.not_lt.mpr hl) hp

theorem exec_wfi (hwho : s.who = .eh) (hd : s.drained = true) (hl : 1 ≤ s.tile.level) :
    exec .wfi s = .next (if s.settle.tile.pending s.gtc &&& s.tile.cr.ienable = 0
      then s.settle.stayBegun .wfi else s.settle.goTo (s.settle.pc + 4) 0) := by
  refine congrArg Host.Outcome.next ((issue_drained (by rw [hwho]; rfl) hd hl rfl).trans ?_)
  have hgtc : s.settle.gtc = s.gtc := by rw [settle_frame]
  simp only [State.wakes, hgtc, settle_cr, finish_of_serial, bne_iff_ne, ite_not]

theorem exec_pause (st : StallCode) : exec (.pause st) s = .next (s.advance st) :=
  congrArg Host.Outcome.next ((issue_allUnits (by simp [State.ready])).trans
    (finish_of_not_side rfl rfl))

/-- A hart of no gang halts for none. -/
theorem haltedForGang_of_no_gang (h : ∀ g ∈ s.gangs, s.cur ∉ g.tiles) : s.haltedForGang = s := by
  have hnone : s.gangs.find? (fun g => g.tiles.contains s.cur && s.tile.place.isNone) = none := by
    simp only [List.find?_eq_none, Bool.and_eq_true, List.contains_iff_mem]
    exact fun g hg hmem => h g hg hmem.1
  unfold State.haltedForGang
  rw [hnone, ite_self]

theorem exec_halt_of_eh (hwho : s.who = .eh) (hd : s.drained = true) (hl : 1 ≤ s.tile.level)
    (hg : ∀ g ∈ s.gangs, s.cur ∉ g.tiles) : exec .halt s = .next
      ((s.settle.goTo (s.settle.pc + 4) 0).onTile fun t => { t with run := .halted }) := by
  have hlevel : (s.tile.level == 0) = false := by simp [Nat.one_le_iff_ne_zero.mp hl]
  refine congrArg Host.Outcome.next
    ((issue_drained rfl hd (Nat.zero_le _) (by simp [hlevel])).trans ?_)
  simp only [finish_of_serial, goTo_who, settle_who, hwho]
  refine haltedForGang_of_no_gang ?_
  rw [goTo_frame, settle_frame]
  exact hg

theorem exec_halt_of_as (hwho : s.who = .as) (hd : s.drained = true) : exec .halt s = .next
    ((s.settle.goTo (s.settle.pc + 4) 0).onTile fun t => { t with acSeq := t.acSeq.stop }) := by
  refine congrArg Host.Outcome.next
    ((issue_drained rfl hd (Nat.zero_le _) (by simp [hwho])).trans ?_)
  simp only [finish_of_serial, goTo_who, settle_who, hwho]

theorem exec_halt_of_ss (hwho : s.who = .ss) (hd : s.drained = true) : exec .halt s = .next
    ((s.settle.goTo (s.settle.pc + 4) 0).onTile fun t => { t with stSeq := t.stSeq.stop }) := by
  refine congrArg Host.Outcome.next
    ((issue_drained rfl hd (Nat.zero_le _) (by simp [hwho])).trans ?_)
  simp only [finish_of_serial, goTo_who, settle_who, hwho]

end

/-! ### The statement -/

/-- Settles O35: SYS and FIRM differ in the bits of STATUS and in the pc that they return to, and
what either resumes is read at the level returned to, with its walks done at once, and from the
place that FRAMEPOS records (the model's choices, logs 28, 56 and 6). -/
theorem returnWaitPauseAndHalt : Obligations.ReturnWaitPauseAndHalt := by
  unfold Obligations.ReturnWaitPauseAndHalt
  refine ⟨?eret, ?waitAndHalt, ?sequencersHalt, fun s st _ => exec_pause st⟩
  case eret =>
    intro s hwho hf z st back returns
    have hreturns {v pc : Word} {k : Nat}
        (hexec : exec .eret s = .next (s.returned v pc k).resumeFrame) : returns v pc k := by
      refine ⟨fun hinactive => hexec.trans (congrArg _ (resumeFrame_of_inactive ?_)),
        fun w ws hactive hinj hword ⟨_, _, _, _, _, _, _, hframe⟩ hwindow hpos hiter => ?_⟩
      · rw [returned_cr]
        exact hinactive
      · rw [hexec, resumeFrame_of_captured (by rw [returned_cr]; exact hactive)
          (returned_injected.trans hinj) (by rw [returned_cr]) rfl (by rw [returned_choice]; rfl)
          hword hframe hwindow hpos hiter, returned_fresh]
        rfl
    exact ⟨exec_eret_of_app hwho hf,
      fun hl => ⟨_, hreturns (exec_eret_of_sys hwho hf hl), fun _ hk =>
        getLsbD_returnStatus _ (by decide) (by decide) hk⟩,
      fun hl hp => ⟨_, hreturns (exec_eret_of_firm hwho hf hl hp), fun _ hk =>
        getLsbD_returnStatus _ (by decide) (by decide) hk⟩⟩
  case waitAndHalt =>
    intro s hwho hd hl
    dsimp only
    rw [exec_wfi hwho hd hl]
    exact ⟨fun hdue => by rw [if_neg hdue], fun hdue => by rw [if_pos hdue],
      exec_halt_of_eh hwho hd hl⟩
  case sequencersHalt =>
    exact fun s hd => ⟨fun hwho => exec_halt_of_as hwho hd, fun hwho => exec_halt_of_ss hwho hd⟩

end Sys2Proof.Machine
end
